-- ==== Sys2Proof/Word.lean ====
section
/-!
DEFINITION. The word types of the block (00_scope.md R9, R14): bytes, 16-bit and 32-bit unsigned words.
-/
namespace Sys2Proof

/-- A byte is a u8 (R14). -/
abbrev Byte := BitVec 8

/-- A u16: options, topic_len (R9). -/
abbrev Half := BitVec 16

/-- A u32: magic, checksum, data_len, every offset and length register, command words and values (R9, R78). -/
abbrev Word := BitVec 32

end Sys2Proof
end

