-- ==== Sys2Proof/Syntax.lean ====
section
/-!
DEFINITION. What the host and the block exchange: commands, instructions, header fields, status codes, responses
(30_encoding.md R71, R78, R80, R84, R85) and the serializer's answers (43_frame_builder.md R187).
-/
namespace Sys2Proof

/-- A command as the host delivers it (R78): the command word, the operand words, the byte string. -/
structure Command where
  /-- W0. -/
  w0 : Word
  /-- OPS. -/
  ops : List Word
  /-- DATA. -/
  data : List Byte
  deriving DecidableEq, Repr

/-- The seventeen opcodes of the opcode map, by name (R80, R82). -/
inductive Op where
  | crcInit | crcUpdate | crcFinal | crcOneshot
  | hdrEncode | hdrDecode | msgType | frameParse | verify | rxLoad
  | bldReset | setTopic | writeRaw | writeVia | finalize | asFrame
  | getStatus
  deriving DecidableEq, Repr

/-- An instruction: a well-formed command with its operands assembled (R81). One constructor per row of the opcode table. -/
inductive Instr where
  /-- CRC_INIT (R124). -/
  | crcInit
  /-- CRC_UPDATE data (R125). -/
  | crcUpdate (data : List Byte)
  /-- CRC_FINAL (R126). -/
  | crcFinal
  /-- CRC_ONESHOT data (R127). -/
  | crcOneshot (data : List Byte)
  /-- HDR_ENCODE magic, checksum, options, topic_len, data_len (R103). -/
  | hdrEncode (magic checksum : Word) (options topicLen : Half) (dataLen : Word)
  /-- HDR_DECODE (R104). -/
  | hdrDecode
  /-- MSG_TYPE (R153). -/
  | msgType
  /-- FRAME_PARSE (R145). -/
  | frameParse
  /-- VERIFY (R156). -/
  | verify
  /-- RX_LOAD data (R141). -/
  | rxLoad (data : List Byte)
  /-- BLD_RESET (R176). -/
  | bldReset
  /-- SET_TOPIC data (R180). -/
  | setTopic (data : List Byte)
  /-- WRITE_RAW data (R182). -/
  | writeRaw (data : List Byte)
  /-- WRITE_VIA value_id (R188). -/
  | writeVia (valueId : Word)
  /-- FINALIZE kind (R191): any 8-bit kind is an instruction. -/
  | finalize (kind : Byte)
  /-- AS_FRAME (R195). -/
  | asFrame
  /-- GET_STATUS (R210). -/
  | getStatus
  deriving DecidableEq, Repr

/-- The opcode of an instruction. -/
def Instr.op : Instr → Op
  | .crcInit => .crcInit
  | .crcUpdate _ => .crcUpdate
  | .crcFinal => .crcFinal
  | .crcOneshot _ => .crcOneshot
  | .hdrEncode _ _ _ _ _ => .hdrEncode
  | .hdrDecode => .hdrDecode
  | .msgType => .msgType
  | .frameParse => .frameParse
  | .verify => .verify
  | .rxLoad _ => .rxLoad
  | .bldReset => .bldReset
  | .setTopic _ => .setTopic
  | .writeRaw _ => .writeRaw
  | .writeVia _ => .writeVia
  | .finalize _ => .finalize
  | .asFrame => .asFrame
  | .getStatus => .getStatus

/-- The five fields of the 16-byte frame header (R71). -/
structure Header where
  magic : Word
  checksum : Word
  options : Half
  topicLen : Half
  dataLen : Word
  deriving DecidableEq, Repr

/-- The status codes the block names (R85). 0xD–0xF are never produced and have no name (93_implementation_defined.md V2). -/
inductive Status where
  | ok | truncatedHeader | truncatedFrame | invalidMagic | checksumMismatch | unknownMessageKind | capacityExceeded
  | invalidTopicEncoding | bufferUnderrun | bufferOverrun | sequenceError | serializerFailed | illegalCommand
  deriving DecidableEq, Repr

/-- The classes of an outcome (R86). -/
inductive StatusClass where
  | ok | completedWithWarning | rejected
  deriving DecidableEq, Repr

/-- A response (R84): status, VALUES, RDATA. -/
structure Response where
  status : Status
  values : List Word
  rdata : List Byte
  deriving DecidableEq, Repr

/-- The two message kinds (R73, R151). -/
inductive Kind where
  | push | subscribe
  deriving DecidableEq, Repr

/-- What the serializer may answer (R187). A serializer that never answers gives none of these. -/
inductive SerAnswer where
  /-- `OK(s)`: it wrote the bytes s, of any length. -/
  | wrote (bytes : List Byte)
  /-- `ERR_NOFIT`: "the value does not fit". -/
  | noFit
  /-- `ERR_UNREPRESENTABLE`: the value "cannot be represented". -/
  | unrepresentable
  deriving DecidableEq, Repr

/-- What the serializer receives (R187): the opaque VALUE_ID and the size REM of the remaining region. -/
structure SerRequest where
  valueId : Word
  rem : Nat
  deriving DecidableEq, Repr

/-- What the host does to the block between commands (R213): issue a command, or assert reset (R250). -/
inductive HostEvent where
  | command (c : Command)
  | reset
  deriving DecidableEq, Repr

end Sys2Proof
end

