-- ==== Sys2Proof/WellFormed.lean ====
section
/-!
DEFINITION. Which instructions the command port can carry. R78 bounds DATA by 2^32 − 1 bytes; every other operand is
bounded by its type. (The well-formedness check of a command TRIPLE, R83, is the decoder's: Decode.lean.)
-/
namespace Sys2Proof

/-- DATA is at most 2^32 − 1 bytes long (R78). -/
abbrev dataFits (data : List Byte) : Prop := data.length ≤ 0xFFFFFFFF

/-- A command the host can deliver (R78). -/
abbrev Command.deliverable (c : Command) : Prop := dataFits c.data

/-- The byte operand of an instruction, empty for the instructions that take none (R80, R81). -/
def Instr.payload : Instr → List Byte
  | .crcUpdate data => data
  | .crcOneshot data => data
  | .rxLoad data => data
  | .setTopic data => data
  | .writeRaw data => data
  | .crcInit | .crcFinal | .hdrEncode _ _ _ _ _ | .hdrDecode | .msgType | .frameParse | .verify
  | .bldReset | .writeVia _ | .finalize _ | .asFrame | .getStatus => []

/-- A well-formed instruction: its byte operand fits the command port (R78). -/
abbrev Instr.WellFormed (i : Instr) : Prop := dataFits i.payload

end Sys2Proof
end

