-- ==== Sys2Proof/Decode.lean ====
section
/-!
DEFINITION. The decoder and the encoder of the command interface (30_encoding.md R79–R83, R88; opcode_table.json).
Decoding is total: every triple is either ill-formed, for a named ground of R83, or selects exactly one instruction.
-/
namespace Sys2Proof

/-- OPC = W0[7:0] (R79). -/
def Command.opc (c : Command) : Byte := c.w0.extractLsb' 0 8

/-- ARG = W0[15:8] (R79). -/
def Command.arg (c : Command) : Byte := c.w0.extractLsb' 8 8

/-- RSVD = W0[31:16] (R79). -/
def Command.rsvd (c : Command) : Half := c.w0.extractLsb' 16 16

/-- OPS[j] (R81). A well-formed command has every operand word its rule reads. -/
def Command.operand (c : Command) (j : Nat) : Word := c.ops.getD j 0

/-- The opcode map (R82). -/
def Op.code : Op → Byte
  | .crcInit => 0x01
  | .crcUpdate => 0x02
  | .crcFinal => 0x03
  | .crcOneshot => 0x04
  | .hdrEncode => 0x10
  | .hdrDecode => 0x11
  | .msgType => 0x12
  | .frameParse => 0x13
  | .verify => 0x14
  | .rxLoad => 0x15
  | .bldReset => 0x20
  | .setTopic => 0x21
  | .writeRaw => 0x22
  | .writeVia => 0x23
  | .finalize => 0x24
  | .asFrame => 0x25
  | .getStatus => 0x30

/-- The rows of the opcode map, in its order (R82). -/
def Op.all : List Op :=
  [.crcInit, .crcUpdate, .crcFinal, .crcOneshot,
   .hdrEncode, .hdrDecode, .msgType, .frameParse, .verify, .rxLoad,
   .bldReset, .setTopic, .writeRaw, .writeVia, .finalize, .asFrame,
   .getStatus]

/-- The opcode an OPC value names, if it is not reserved (R82). -/
def Op.ofCode (b : Byte) : Option Op := Op.all.find? fun op => op.code == b

/-- k, the required number of operand words (R80). -/
def Op.operandWords : Op → Nat
  | .hdrEncode => 4
  | .writeVia => 1
  | .crcInit | .crcUpdate | .crcFinal | .crcOneshot | .hdrDecode | .msgType | .frameParse | .verify | .rxLoad
  | .bldReset | .setTopic | .writeRaw | .finalize | .asFrame | .getStatus => 0

/-- Whether DATA may be non-empty (R80, column "data"). -/
def Op.takesData : Op → Bool
  | .crcUpdate | .crcOneshot | .rxLoad | .setTopic | .writeRaw => true
  | .crcInit | .crcFinal | .hdrEncode | .hdrDecode | .msgType | .frameParse | .verify
  | .bldReset | .writeVia | .finalize | .asFrame | .getStatus => false

/-- Whether ARG may be non-zero: only FINALIZE uses it (R79, R80). -/
def Op.takesArg : Op → Bool
  | .finalize => true
  | .crcInit | .crcUpdate | .crcFinal | .crcOneshot | .hdrEncode | .hdrDecode | .msgType | .frameParse | .verify
  | .rxLoad | .bldReset | .setTopic | .writeRaw | .writeVia | .asFrame | .getStatus => false

/-- The `match` column of the opcode table: `zext_32(OPC)` (R82). -/
def Op.tableMatch (op : Op) : Word := op.code.zeroExtend 32

/-- The `mask` column of the opcode table (R82): FINALIZE leaves ARG free. -/
def Op.tableMask (op : Op) : Word := if op.takesArg then 0xFFFF00FF else 0xFFFFFFFF

/-- Why a command is ill-formed: the grounds (a) to (e) of R83. -/
inductive IllFormed where
  /-- (a) OPC is reserved. -/
  | reservedOpcode
  /-- (b) RSVD is not 0. -/
  | reservedBits
  /-- (c) ARG is not 0 and OPC is not FINALIZE. -/
  | argument
  /-- (d) The number of operand words is not k. -/
  | operandCount
  /-- (e) DATA is non-empty where it must be empty. -/
  | unexpectedData
  deriving DecidableEq, Repr

/-- The checks (b) to (e) of R83 on a command whose OPC names `op`. -/
def Command.shapeError (c : Command) (op : Op) : Option IllFormed :=
  if c.rsvd ≠ 0 then some .reservedBits
  else if c.arg ≠ 0 ∧ op.takesArg = false then some .argument
  else if c.ops.length ≠ op.operandWords then some .operandCount
  else if c.data ≠ [] ∧ op.takesData = false then some .unexpectedData
  else none

/-- The well-formedness check of R83: the first ground that holds, if any. -/
def Command.illFormed (c : Command) : Option IllFormed :=
  match Op.ofCode c.opc with
  | none => some .reservedOpcode
  | some op => c.shapeError op

/-- Operand assembly (R81). -/
def Command.assemble (c : Command) : Op → Instr
  | .crcInit => .crcInit
  | .crcUpdate => .crcUpdate c.data
  | .crcFinal => .crcFinal
  | .crcOneshot => .crcOneshot c.data
  | .hdrEncode =>
    .hdrEncode (c.operand 0) (c.operand 1)
      ((c.operand 2).extractLsb' 16 16) ((c.operand 2).extractLsb' 0 16) (c.operand 3)
  | .hdrDecode => .hdrDecode
  | .msgType => .msgType
  | .frameParse => .frameParse
  | .verify => .verify
  | .rxLoad => .rxLoad c.data
  | .bldReset => .bldReset
  | .setTopic => .setTopic c.data
  | .writeRaw => .writeRaw c.data
  | .writeVia => .writeVia (c.operand 0)
  | .finalize => .finalize c.arg
  | .asFrame => .asFrame
  | .getStatus => .getStatus

/-- The decoder (R83, R211): a ground of R83, or the one instruction the triple selects. -/
def decode (c : Command) : Except IllFormed Instr :=
  match Op.ofCode c.opc with
  | none => .error .reservedOpcode
  | some op =>
    match c.shapeError op with
    | some why => .error why
    | none => .ok (c.assemble op)

/-- A command word with the opcode and ARG given (R89): `W0 = zext_32(ARG) << 8 | OPC`. -/
def commandWord (op : Op) (arg : Byte) : Word := (0#16 ++ arg ++ op.code : BitVec 32)

/-- A command with no ARG (R80). -/
def plainCommand (op : Op) (ops : List Word) (data : List Byte) : Command :=
  { w0 := commandWord op 0, ops := ops, data := data }

/-- The encoder: the command that carries an instruction (R80, R81, R89). -/
def encode : Instr → Command
  | .crcInit => plainCommand .crcInit [] []
  | .crcUpdate data => plainCommand .crcUpdate [] data
  | .crcFinal => plainCommand .crcFinal [] []
  | .crcOneshot data => plainCommand .crcOneshot [] data
  | .hdrEncode magic checksum options topicLen dataLen =>
    plainCommand .hdrEncode [magic, checksum, (options ++ topicLen : BitVec 32), dataLen] []
  | .hdrDecode => plainCommand .hdrDecode [] []
  | .msgType => plainCommand .msgType [] []
  | .frameParse => plainCommand .frameParse [] []
  | .verify => plainCommand .verify [] []
  | .rxLoad data => plainCommand .rxLoad [] data
  | .bldReset => plainCommand .bldReset [] []
  | .setTopic data => plainCommand .setTopic [] data
  | .writeRaw data => plainCommand .writeRaw [] data
  | .writeVia valueId => plainCommand .writeVia [valueId] []
  | .finalize kind => { w0 := commandWord .finalize kind, ops := [], data := [] }
  | .asFrame => plainCommand .asFrame [] []
  | .getStatus => plainCommand .getStatus [] []

/-- The command whose bits are `w`, numbered as opcode_table.json numbers them: W0 is bits 31:0 and operand word j is
bits 32(j+1)+31 : 32(j+1); every bit at or above `nbits` is 0, and DATA is empty. W0 alone fixes the number of operand
words (R88). -/
def Command.ofTableBits (nbits w : Nat) : Command :=
  let v := w % 2 ^ nbits
  let w0 : Word := BitVec.ofNat 32 v
  let k := ((Op.ofCode (w0.extractLsb' 0 8)).map Op.operandWords).getD 0
  { w0 := w0, ops := (List.range k).map fun j => BitVec.ofNat 32 (v / 2 ^ (32 * (j + 1))), data := [] }

/-- The instruction the decoder reads from an instruction whose bits are `w`, in the table's numbering. -/
def decodeTableWord (nbits w : Nat) : Option Instr :=
  match decode (Command.ofTableBits nbits w) with
  | .ok i => some i
  | .error _ => none

end Sys2Proof
end

