-- ==== Sys2Proof/Machine/Crc.lean ====
section
/-!
DEFINITION. The CRC function (41_checksum.md R120–R122), bit by bit as the source states it. Any other way to compute it
is equivalent (R123).
-/
namespace Sys2Proof.Machine

/-- The polynomial, reflected (R120). -/
def crcPoly : Word := 0xEDB88320

/-- The initial register (R120). -/
def crcInitial : Word := 0xFFFFFFFF

/-- The final XOR (R120). -/
def crcXorOut : Word := 0xFFFFFFFF

/-- One of the 8 iterations (R121): the low bit is tested before the logical shift. -/
def crcBit (r : Word) : Word := if r.getLsbD 0 then (r >>> 1) ^^^ crcPoly else r >>> 1

/-- `n` iterations of R121. -/
def crcBits : Nat → Word → Word
  | 0, r => r
  | n + 1, r => crcBits n (crcBit r)

/-- `crc_step(c, b)` (R121): b enters bits 7:0, then 8 iterations. -/
def crcStep (c : Word) (b : Byte) : Word := crcBits 8 (c ^^^ b.zeroExtend 32)

/-- `crc_update(c, s)` (R122): the bytes in string order. -/
def crcUpdate (c : Word) (s : List Byte) : Word := s.foldl crcStep c

/-- The last step of the checksum (R120, R122). -/
def crcFinish (c : Word) : Word := c ^^^ crcXorOut

/-- `crc32(s)` (R122). -/
def crc32 (s : List Byte) : Word := crcFinish (crcUpdate crcInitial s)

end Sys2Proof.Machine
end

