-- ==== Sys2Proof/Config.lean ====
section
/-!
DEFINITION. The parameters of one block instance (00_scope.md R5–R8, R17; 10_state.md R42) and the values an
implementation fixes. An opaque constant has no body: nothing in Lean can prove which number it is.
-/
namespace Sys2Proof

/-- The configuration of an instance (R42): fixed "at construction", changed by no command and by no reset (R251).
KIND_MASK is held as its open bits 15:2 alone, since every legal mask has `KIND_MASK & 3 = 3` (R6). -/
structure Params where
  /-- MAGIC (R5). -/
  magic : Word
  /-- KIND_MASK[15:2], OPEN (R6, D6). -/
  kindMaskHigh : BitVec 14
  /-- CAPACITY, the byte size of TX (R7). -/
  capacity : Word
  /-- RXCAP, the byte size of RX (R8). -/
  rxcap : Word
  /-- HAS_SERIALIZER (R17). -/
  hasSerializer : Bool
  deriving DecidableEq, Repr

/-- KIND_MASK (R6): bits 1:0 are 1, the others as the instance has them. -/
def Params.kindMask (p : Params) : Half := p.kindMaskHigh ++ 3#2

/-- The open bits of KIND_MASK of this hardware (R6, D6, I8: the model must not fix the mask). -/
opaque Config.kindMaskHigh : BitVec 14

/-- CAPACITY of this hardware, "chosen by the caller at construction" (R7, I10). -/
opaque Config.capacity : Word

/-- RXCAP of this hardware (R8, I11). -/
opaque Config.rxcap : Word

/-- DESIGN CHOICE (log 18). Which range VERIFY checksums where the view registers and the declared lengths give different
ranges: R35 names the V_* registers, R156 names H_TOPIC_LEN and H_DATA_LEN, and no ruling sets either aside. -/
opaque Config.verifyTakesViews : Bool

/-- The instance the machine comes out of reset as: MAGIC is the value R5 takes, HAS_SERIALIZER its default (R17),
and the three values the spec leaves to the instance stay opaque. -/
def Config.params : Params :=
  { magic := 0xDEADBEEF
    kindMaskHigh := Config.kindMaskHigh
    capacity := Config.capacity
    rxcap := Config.rxcap
    hasSerializer := true }

end Sys2Proof
end

