-- ==== Sys2Proof/Machine/State.lean ====
section
/-!
DEFINITION. The state of one block instance (10_state.md R24–R39, R43), its reset value, and the reasons a step can stop.
-/
namespace Sys2Proof.Machine

/-- The builder's phase (R25). -/
inductive Phase where
  | empty | topic | data | finalized
  deriving DecidableEq, Repr

/-- The two byte spaces (R50). -/
inductive Space where
  | tx | rx
  deriving DecidableEq, Repr

/-- A byte space's contents: the bytes that hold a value, by offset. A byte that is not listed holds no value
(10_state.md R38, R39; 92_eei_decisions.md D36; DESIGN CHOICE, log 2). -/
abbrev Memory := List Host.Cell

/-- The canonical form of a memory: offsets strictly rising, so each byte is listed at most once and equal memories are
equal lists. (No listed byte can equal what an unlisted one reads as, since an unlisted one holds no value.) -/
abbrev Memory.wf (m : Memory) : Prop := m.Pairwise fun x y => x.1 < y.1

/-- The state of one instance. -/
structure State where
  /-- The instance's parameters (R42): not state, changed by nothing, held here so that a step can read them (log 1). -/
  params : Params
  /-- CRC (R24). -/
  crc : Word
  /-- PHASE (R25). -/
  phase : Phase
  /-- CUR (R26). -/
  cur : Word
  /-- B_TOPIC_LEN (R27). -/
  bTopicLen : Half
  /-- B_DATA_LEN (R28). -/
  bDataLen : Word
  /-- FRAME_LEN (R29). -/
  frameLen : Word
  /-- RXLEN (R30). -/
  rxLen : Word
  /-- HDR_VALID (R31). -/
  hdrValid : Bool
  /-- FRAME_VALID (R32). -/
  frameValid : Bool
  /-- TRUNC (R33). -/
  trunc : Bool
  /-- H_MAGIC (R34). -/
  hMagic : Word
  /-- H_CHECKSUM (R34). -/
  hChecksum : Word
  /-- H_OPTIONS (R34). -/
  hOptions : Half
  /-- H_TOPIC_LEN (R34). -/
  hTopicLen : Half
  /-- H_DATA_LEN (R34). -/
  hDataLen : Word
  /-- V_TOPIC_OFF (R35). -/
  vTopicOff : Word
  /-- V_TOPIC_LEN (R35). -/
  vTopicLen : Word
  /-- V_PAYLOAD_OFF (R35). -/
  vPayloadOff : Word
  /-- V_PAYLOAD_LEN (R35). -/
  vPayloadLen : Word
  /-- ERR (R36). -/
  err : Status
  /-- TX (R38). -/
  tx : Memory
  /-- RX (R39). -/
  rx : Memory
  /-- The host's end of the command port: what the host still does, in order (R213, R250; the model's own field, log 4). -/
  inbox : List HostEvent
  /-- The serializer's end: the answers it still gives, in order (R42, R187; the model's own field, log 6). -/
  serAnswers : List SerAnswer
  /-- What the serializer was last handed (R187; the model's own field, log 7). -/
  serRequest : Option SerRequest
  /-- The response port: the response of the last command (R84; the model's own field, log 5). -/
  resp : Option Response
  deriving DecidableEq, Repr

/-- The state of an instance right after reset (R43, R250): every register at the value of R43, no byte of TX or RX
holding a value, and the three interfaces empty (logs 4 to 7). -/
def State.resetOf (p : Params) : State :=
  { params := p
    crc := 0xFFFFFFFF
    phase := .empty
    cur := 16
    bTopicLen := 0
    bDataLen := 0
    frameLen := 0
    rxLen := 0
    hdrValid := false
    frameValid := false
    trunc := false
    hMagic := 0
    hChecksum := 0
    hOptions := 0
    hTopicLen := 0
    hDataLen := 0
    vTopicOff := 0
    vTopicLen := 0
    vPayloadOff := 0
    vPayloadLen := 0
    err := .ok
    tx := []
    rx := []
    inbox := []
    serAnswers := []
    serRequest := none
    resp := none }

/-- The machine right after reset: R43, for this hardware's instance (Config.params). -/
def State.reset : State := State.resetOf Config.params

/-- Why the machine stops. None of these is an error of the block: its errors are status codes in a response (R220). -/
inductive Fault where
  /-- Raised by WRITE_VIA when the serializer never answers: the spec's one stuck state (43_frame_builder.md R187;
  60_exceptions.md R237; 93_implementation_defined.md U6). Safe: the block is stuck there too. -/
  | serializerSilent
  /-- Raised by MemRead and MemWrite when the bytes do not lie in the space (20_memory.md R52, R53; U8). Safe: the spec
  permits this fault, and no state that satisfies the invariants of R40 and R41 reaches it (log 8). -/
  | spaceOverrun (sp : Space)
  /-- Raised by MemRead when a byte of the range holds no value (92_eei_decisions.md D36). Safe: the spec permits this
  fault, and no state that satisfies the invariants reaches it (log 2). -/
  | unwrittenByte (sp : Space)
  deriving DecidableEq, Repr

/-- Why an instruction has no meaning in the model. -/
inductive Refusal where
  /-- Raised by an arm of `exec` whose instruction has no meaning yet. Safe: nothing follows from it. -/
  | notModelled (mnemonic : String)
  deriving DecidableEq, Repr

end Sys2Proof.Machine
end

