-- ==== Sys2Proof/Machine/Ops.lean ====
section
/-!
DEFINITION. The named operations over the byte spaces (20_memory.md R50–R54), the response port (30_encoding.md R84), the
rejection of a command (60_exceptions.md R223) and the reset event (70_reset_and_hazards.md R250).
-/
namespace Sys2Proof.Machine

/-- The outcome of a step. -/
abbrev Outcome := Host.Outcome State Fault Refusal

/-! ## Memory as data -/

/-- The byte at offset `a`, if it holds a value. -/
def Memory.read : Memory → Nat → Option Byte
  | [], _ => none
  | (k, v) :: rest, a => if k = a then some v else Memory.read rest a

/-- Write one byte, keeping the canonical form. -/
def Memory.write : Memory → Nat → Byte → Memory
  | [], a, b => [(a, b)]
  | (k, v) :: rest, a, b =>
    if a < k then (a, b) :: (k, v) :: rest
    else if k = a then (a, b) :: rest
    else (k, v) :: Memory.write rest a b

/-- Write a byte string from offset `a` up, in string order (R53). -/
def Memory.writeBytes (m : Memory) (a : Nat) : List Byte → Memory
  | [] => m
  | b :: bs => Memory.writeBytes (m.write a b) (a + 1) bs

/-- The `n` bytes from offset `a` up (R52), if each holds a value. -/
def Memory.readBytes (m : Memory) (a : Nat) : Nat → Option (List Byte)
  | 0 => some []
  | n + 1 =>
    match m.read a, Memory.readBytes m (a + 1) n with
    | some b, some bs => some (b :: bs)
    | _, _ => none

/-- Make the bytes at offsets `lo ≤ a < hi` hold no value: the spec leaves them arbitrary (D36). -/
def Memory.forget (m : Memory) (lo hi : Nat) : Memory :=
  m.filter fun c => decide (c.1 < lo ∨ hi ≤ c.1)

/-! ## The two byte spaces -/

/-- The size of a space in bytes (R50). -/
def State.size (s : State) : Space → Nat
  | .tx => s.params.capacity.toNat
  | .rx => s.params.rxcap.toNat

/-- The contents of a space. -/
def State.mem (s : State) : Space → Memory
  | .tx => s.tx
  | .rx => s.rx

/-- One byte of a space, if it holds a value. -/
def State.readByte (s : State) (sp : Space) (a : Nat) : Option Byte := (s.mem sp).read a

/-- Replace the contents of a space; the other space is untouched (R50). -/
def State.setMem (s : State) (sp : Space) (m : Memory) : State :=
  match sp with
  | .tx => { s with tx := m }
  | .rx => { s with rx := m }

/-- The write of MemWrite (R53) without its precondition: for the commands that have just checked it. -/
def State.putBytes (s : State) (sp : Space) (a : Nat) (bs : List Byte) : State :=
  s.setMem sp ((s.mem sp).writeBytes a bs)

/-- MemRead (R52): the `n` bytes of a space from `a` up. A violated precondition is a fault (U8), and so is a byte that
holds no value (D36). -/
def State.memRead (s : State) (sp : Space) (a n : Nat) : Except Fault (List Byte) :=
  if a + n ≤ s.size sp then
    match (s.mem sp).readBytes a n with
    | some bs => .ok bs
    | none => .error (.unwrittenByte sp)
  else .error (.spaceOverrun sp)

/-- MemWrite (R53): write `bs` in a space from `a` up. A violated precondition is a fault (U8). -/
def State.memWrite (s : State) (sp : Space) (a : Nat) (bs : List Byte) : Except Fault State :=
  if a + bs.length ≤ s.size sp then .ok (s.putBytes sp a bs) else .error (.spaceOverrun sp)

/-- Go on with the bytes MemRead returns, or stop with its fault. -/
def State.withBytes (s : State) (sp : Space) (a n : Nat) (k : List Byte → Outcome) : Outcome :=
  match s.memRead sp a n with
  | .ok bs => k bs
  | .error f => .fault f

/-! ## Responses and rejections -/

/-- `respond(status, VALUES, RDATA)` of a command that leaves ERR alone: only GET_STATUS (R36, R210). -/
def State.answer (s : State) (st : Status) (values : List Word) (rdata : List Byte) : State :=
  { s with resp := some { status := st, values := values, rdata := rdata } }

/-- `ERR <- status ; respond(status, VALUES, RDATA)` (R36, R84). -/
def State.respond (s : State) (st : Status) (values : List Word) (rdata : List Byte) : State :=
  { s with err := st, resp := some { status := st, values := values, rdata := rdata } }

/-- The rejection of a command (R223): `ERR <- status`, an empty response, and nothing else. This is the block's whole
error mechanism: there is no trap entry and no return (R220, R227, R228). -/
def State.reject (s : State) (st : Status) : State := s.respond st [] []

/-- The rejection of an ill-formed command (R83). -/
def State.rejectIllFormed (s : State) : State := s.reject .illegalCommand

/-! ## Reset and the command port -/

/-- The reset event (R250): every piece of state to its reset value, no response. The parameters stay (R251), and so does
what the host and the serializer will do next, which is not the block's (log 9). -/
def State.resetEvent (s : State) : State :=
  { State.resetOf s.params with inbox := s.inbox, serAnswers := s.serAnswers }

/-- The host issues `c` as its next command (R213). -/
def State.issue (s : State) (c : Command) : State := { s with inbox := .command c :: s.inbox }

/-- The port after the host's event has been taken from it. -/
def State.taken (s : State) (rest : List HostEvent) : State := { s with inbox := rest }

end Sys2Proof.Machine
end

