-- ==== Sys2Proof/Machine/Checksum.lean ====
section
/-!
DEFINITION. The meanings of the checksum unit's commands: CRC_INIT, CRC_UPDATE, CRC_FINAL, CRC_ONESHOT (41_checksum.md).
-/
namespace Sys2Proof.Machine

/-- CRC_INIT (R124). -/
def execCrcInit (s : State) : Outcome :=
  .next ({ s with crc := crcInitial }.respond .ok [] [])

/-- CRC_UPDATE (R125). -/
def execCrcUpdate (data : List Byte) (s : State) : Outcome :=
  .next ({ s with crc := crcUpdate s.crc data }.respond .ok [] [])

/-- CRC_FINAL (R126): CRC is not changed. -/
def execCrcFinal (s : State) : Outcome :=
  .next (s.respond .ok [crcFinish s.crc] [])

/-- CRC_ONESHOT (R127): CRC is not touched (R130). -/
def execCrcOneshot (data : List Byte) (s : State) : Outcome :=
  .next (s.respond .ok [crc32 data] [])

end Sys2Proof.Machine
end

