-- ==== Sys2Proof/Machine/Operands.lean ====
section
/-!
DEFINITION. Byte order (20_memory.md R55–R59), the cursor (R60), and the header encoding and decoding functions
(40_header_codec.md R100, R101) with the operations the header and frame commands share.
-/
namespace Sys2Proof.Machine

/-- The header region's size (R9, R71). -/
def headerBytes : Nat := 16

/-! ## Byte order -/

/-- `be32(v)` (R55): most significant byte first. -/
def be32 (v : Word) : List Byte :=
  [v.extractLsb' 24 8, v.extractLsb' 16 8, v.extractLsb' 8 8, v.extractLsb' 0 8]

/-- `be16(v)` (R56). -/
def be16 (v : Half) : List Byte := [v.extractLsb' 8 8, v.extractLsb' 0 8]

/-- `s[i]` of a byte string; only used where `i < len(s)`. -/
def byteAt (s : List Byte) (i : Nat) : Byte := s.getD i 0

/-- `rd32(s, i)` (R57), for `i + 4 <= len(s)`. -/
def rd32 (s : List Byte) (i : Nat) : Word :=
  ((byteAt s i).zeroExtend 32 <<< 24) ||| ((byteAt s (i + 1)).zeroExtend 32 <<< 16)
    ||| ((byteAt s (i + 2)).zeroExtend 32 <<< 8) ||| (byteAt s (i + 3)).zeroExtend 32

/-- `rd16(s, i)` (R58), for `i + 2 <= len(s)`. -/
def rd16 (s : List Byte) (i : Nat) : Half :=
  ((byteAt s i).zeroExtend 16 <<< 8) ||| (byteAt s (i + 1)).zeroExtend 16

/-! ## The cursor (R60) -/

/-- A sequential accessor over a byte region (R60): a pure helper, no state of the block. -/
structure Cursor where
  region : List Byte
  pos : Nat
  deriving DecidableEq, Repr

/-- `read_u32` (R60). -/
def cursorReadU32 (c : Cursor) : Except Status (Word × Cursor) :=
  if c.region.length < c.pos + 4 then .error .bufferUnderrun
  else .ok (rd32 c.region c.pos, { c with pos := c.pos + 4 })

/-- `read_u16` (R60). -/
def cursorReadU16 (c : Cursor) : Except Status (Half × Cursor) :=
  if c.region.length < c.pos + 2 then .error .bufferUnderrun
  else .ok (rd16 c.region c.pos, { c with pos := c.pos + 2 })

/-- `write_n` (R60). -/
def cursorWrite (c : Cursor) (s : List Byte) : Except Status Cursor :=
  if c.region.length < c.pos + s.length then .error .bufferOverrun
  else .ok { region := c.region.take c.pos ++ s ++ c.region.drop (c.pos + s.length), pos := c.pos + s.length }

/-- The five cursor reads of the header decode, in the fixed order of R101 (R105). -/
def cursorReadHeader (c : Cursor) : Except Status (Header × Cursor) := do
  let (magic, c) ← cursorReadU32 c
  let (checksum, c) ← cursorReadU32 c
  let (options, c) ← cursorReadU16 c
  let (topicLen, c) ← cursorReadU16 c
  let (dataLen, c) ← cursorReadU32 c
  return ({ magic, checksum, options, topicLen, dataLen }, c)

/-! ## The header codec functions -/

/-- `header(magic, checksum, options, topic_len, data_len)` (R100). -/
def encodeHeader (h : Header) : List Byte :=
  be32 h.magic ++ be32 h.checksum ++ be16 h.options ++ be16 h.topicLen ++ be32 h.dataLen

/-- The five fields of the first 16 bytes of a byte string (R71, R101). -/
def headerFields (s : List Byte) : Header :=
  { magic := rd32 s 0, checksum := rd32 s 4, options := rd16 s 8, topicLen := rd16 s 10, dataLen := rd32 s 12 }

/-- `parse_header(s)` (R101). -/
def parseHeader (s : List Byte) : Except Status Header :=
  if s.length < headerBytes then .error .truncatedHeader else .ok (headerFields s)

/-- options and topic_len packed in wire order into one value (R81, R104). -/
def packOptionsTopicLen (options topicLen : Half) : Word :=
  (options.zeroExtend 32 <<< 16) ||| topicLen.zeroExtend 32

/-- The four values that report a decoded header (R104, R145). -/
def headerValues (h : Header) : List Word :=
  [h.magic, h.checksum, packOptionsTopicLen h.options h.topicLen, h.dataLen]

/-- Load the decoded header registers (R34). -/
def State.setHeader (s : State) (h : Header) : State :=
  { s with
    hMagic := h.magic, hChecksum := h.checksum, hOptions := h.options, hTopicLen := h.topicLen, hDataLen := h.dataLen }

/-- The header that the decoded header registers hold (R34). -/
def State.header (s : State) : Header :=
  { magic := s.hMagic, checksum := s.hChecksum, options := s.hOptions, topicLen := s.hTopicLen, dataLen := s.hDataLen }

/-! ## The clamped views (R142–R146): exact arithmetic, on natural numbers -/

/-- `declared_end = 16 + topic_len + data_len` (R142, R146). -/
def declaredEnd (h : Header) : Nat := headerBytes + h.topicLen.toNat + h.dataLen.toNat

/-- `end = min(declared_end, RXLEN)` (R143). -/
def clampedEnd (h : Header) (rxLen : Nat) : Nat := min (declaredEnd h) rxLen

/-- `topic_end = min(16 + t, end)` (R144). -/
def topicEnd (h : Header) (rxLen : Nat) : Nat := min (headerBytes + h.topicLen.toNat) (clampedEnd h rxLen)

/-- Load the view registers (R35) with the views of R144. -/
def State.setViews (s : State) (h : Header) : State :=
  let e := clampedEnd h s.rxLen.toNat
  let te := topicEnd h s.rxLen.toNat
  { s with
    vTopicOff := BitVec.ofNat 32 headerBytes
    vTopicLen := BitVec.ofNat 32 (te - headerBytes)
    vPayloadOff := BitVec.ofNat 32 te
    vPayloadLen := BitVec.ofNat 32 (e - te) }

/-- The view registers give the topic and the payload of the declared lengths, with no clamp: what R41 says of FRAME_VALID = 1
with TRUNC = 0. -/
abbrev State.viewsDeclared (s : State) : Prop :=
  s.vTopicOff.toNat = headerBytes ∧ s.vPayloadOff.toNat = headerBytes + s.vTopicLen.toNat ∧
    s.vTopicLen.toNat = s.hTopicLen.toNat ∧ s.vPayloadLen.toNat = s.hDataLen.toNat

/-- The four values that report the views (R145). -/
def State.viewValues (s : State) : List Word := [s.vTopicOff, s.vTopicLen, s.vPayloadOff, s.vPayloadLen]

end Sys2Proof.Machine
end

