-- ==== Sys2Proof/Machine/Flags.lean ====
section
/-!
DEFINITION. Status codes and classes (30_encoding.md R85, R86), the STATUS word (10_state.md R37), the valid bits
(R31–R33) and the message kind (42_frame_decode.md R151). The block has no arithmetic flags (R23).
-/
namespace Sys2Proof.Machine

/-- The numeric status codes (R85). -/
def statusCode : Status → BitVec 4
  | .ok => 0x0
  | .truncatedHeader => 0x1
  | .truncatedFrame => 0x2
  | .invalidMagic => 0x3
  | .checksumMismatch => 0x4
  | .unknownMessageKind => 0x5
  | .capacityExceeded => 0x6
  | .invalidTopicEncoding => 0x7
  | .bufferUnderrun => 0x8
  | .bufferOverrun => 0x9
  | .sequenceError => 0xA
  | .serializerFailed => 0xB
  | .illegalCommand => 0xC

/-- The encoding of PHASE (R25). -/
def phaseCode : Phase → BitVec 2
  | .empty => 0
  | .topic => 1
  | .data => 2
  | .finalized => 3

/-- A one-bit register as a number. -/
def bitCode (b : Bool) : BitVec 1 := BitVec.ofBool b

/-- The class of an outcome, which the host tells from the opcode and the status (R86). -/
def statusClass (op : Op) (st : Status) : StatusClass :=
  match st with
  | .ok => .ok
  | .truncatedFrame => if op = .frameParse then .completedWithWarning else .rejected
  | .truncatedHeader | .invalidMagic | .checksumMismatch | .unknownMessageKind | .capacityExceeded
  | .invalidTopicEncoding | .bufferUnderrun | .bufferOverrun | .sequenceError | .serializerFailed
  | .illegalCommand => .rejected

/-- STATUS (R37): ERR in 3:0, PHASE in 5:4, HDR_VALID, FRAME_VALID and TRUNC in 6, 7 and 8, and 0 above. -/
def State.statusWord (s : State) : Word :=
  (statusCode s.err).zeroExtend 32 ||| ((phaseCode s.phase).zeroExtend 32 <<< 4)
    ||| ((bitCode s.hdrValid).zeroExtend 32 <<< 6) ||| ((bitCode s.frameValid).zeroExtend 32 <<< 7)
    ||| ((bitCode s.trunc).zeroExtend 32 <<< 8)

/-- Clear FRAME_VALID and TRUNC (R32, R33). -/
def State.clearFrameValid (s : State) : State := { s with frameValid := false, trunc := false }

/-- Clear HDR_VALID, FRAME_VALID and TRUNC (R31–R33). -/
def State.clearValid (s : State) : State := { s with hdrValid := false, frameValid := false, trunc := false }

/-- Whether a parse is truncated: `declared_end > RXLEN` (R33, R145). -/
def isTruncated (h : Header) (rxLen : Nat) : Bool := decide (rxLen < declaredEnd h)

/-- The code of a message kind (R73). -/
def kindCode : Kind → Half
  | .push => 1
  | .subscribe => 2

/-- `kind_of(options)` under a given KIND_MASK (R151). -/
def kindOf (mask options : Half) : Except Status Kind :=
  let masked := options &&& mask
  if masked = kindCode .push then .ok .push
  else if masked = kindCode .subscribe then .ok .subscribe
  else .error .unknownMessageKind

/-- The step HDR_DECODE and FRAME_PARSE share (R104, R105, R145): with fewer than 16 bytes the three valid bits are cleared
and the command is rejected; otherwise go on with the header in the first 16 bytes of RX. -/
def State.withRxHeader (s : State) (k : Header → Outcome) : Outcome :=
  if s.rxLen.toNat < headerBytes then .next (s.clearValid.reject .truncatedHeader)
  else s.withBytes .rx 0 headerBytes fun bs => k (headerFields bs)

end Sys2Proof.Machine
end

