-- ==== Sys2Proof/Machine/Control.lean ====
section
/-!
DEFINITION. The meaning of GET_STATUS (44_control.md).
-/
namespace Sys2Proof.Machine

/-- GET_STATUS (R210): ERR is not written. -/
def execGetStatus (s : State) : Outcome :=
  .next (s.answer .ok [s.statusWord, s.cur, s.rxLen, s.frameLen] [])

end Sys2Proof.Machine
end

