-- ==== Sys2Proof/Machine/FrameBuilder.lean ====
section
/-!
DEFINITION. The meanings of the frame builder's commands: BLD_RESET, SET_TOPIC, WRITE_RAW, WRITE_VIA, FINALIZE, AS_FRAME
(43_frame_builder.md). Each checks PHASE first (R172), and every check precedes the first write (R223).
-/
namespace Sys2Proof.Machine

/-- BLD_RESET (R176): valid in every phase; TX is not cleared. -/
def execBldReset (s : State) : Outcome :=
  .next ({ s with phase := .empty, cur := 16, bTopicLen := 0, bDataLen := 0, frameLen := 0 }.respond .ok [] [])

/-- The longest topic whose length fits the 16-bit topic_len (R178). -/
def maxTopic : Nat := 0xFFFF

/-- SET_TOPIC (R180). -/
def execSetTopic (data : List Byte) (s : State) : Outcome :=
  .next
    (if s.phase ≠ .empty then s.reject .sequenceError
     else if maxTopic < data.length ∨ s.size .tx < headerBytes + data.length then s.reject .capacityExceeded
     else
      { (s.putBytes .tx headerBytes data) with
        bTopicLen := BitVec.ofNat 16 data.length
        cur := BitVec.ofNat 32 (headerBytes + data.length)
        phase := .topic }.respond .ok [] [])

/-- The payload bytes at the cursor and the builder in DATA, the effect WRITE_RAW and WRITE_VIA share (R182, R188). -/
def State.putPayload (s : State) (bs : List Byte) : State :=
  { (s.putBytes .tx s.cur.toNat bs) with
    bDataLen := BitVec.ofNat 32 bs.length
    cur := BitVec.ofNat 32 (s.cur.toNat + bs.length)
    phase := .data }

/-- WRITE_RAW (R182). -/
def execWriteRaw (data : List Byte) (s : State) : Outcome :=
  .next
    (if s.phase ≠ .topic then s.reject .sequenceError
     else if s.size .tx < s.cur.toNat + data.length then s.reject .capacityExceeded
     else (s.putPayload data).respond .ok [] [])

/-- The serializer is handed `(VALUE_ID, REM)`, its answer is taken, and TX[CUR : CAPACITY) is left arbitrary: those bytes
hold no value until something writes them (R187, R188; log 3). -/
def State.askSerializer (s : State) (valueId : Word) (rest : List SerAnswer) : State :=
  { s with
    serAnswers := rest
    serRequest := some { valueId := valueId, rem := s.size .tx - s.cur.toNat }
    tx := s.tx.forget s.cur.toNat (s.size .tx) }

/-- What WRITE_VIA makes of the serializer's answer, in the state after the asking (R188). -/
def State.takeAnswer (s : State) : SerAnswer → State
  | .noFit => s.reject .capacityExceeded
  | .unrepresentable => s.reject .serializerFailed
  | .wrote bs =>
    if s.size .tx < s.cur.toNat + bs.length then s.reject .capacityExceeded
    else (s.putPayload bs).respond .ok [BitVec.ofNat 32 bs.length] []

/-- WRITE_VIA (R188). Without a serializer it is rejected and TX is untouched (R186). If the serializer never answers the
block is stuck (R187, R237). -/
def execWriteVia (valueId : Word) (s : State) : Outcome :=
  if s.phase ≠ .topic then .next (s.reject .sequenceError)
  else if s.params.hasSerializer = false then .next (s.reject .serializerFailed)
  else
    match s.serAnswers with
    | [] => .fault .serializerSilent
    | ans :: rest => .next ((s.askSerializer valueId rest).takeAnswer ans)

/-- The header FINALIZE assembles (R190, R191): MAGIC, the checksum of topic and payload, the kind as options, and the two
recorded lengths. -/
def State.frameHeader (s : State) (kind : Byte) (body : List Byte) : Header :=
  { magic := s.params.magic
    checksum := crc32 body
    options := kind.zeroExtend 16
    topicLen := s.bTopicLen
    dataLen := s.bDataLen }

/-- FINALIZE (R191): the checksum covers TX[16 : CUR), and the header goes to TX[0:16). -/
def execFinalize (kind : Byte) (s : State) : Outcome :=
  if s.phase ≠ .data then .next (s.reject .sequenceError)
  else if kind ≠ 1 ∧ kind ≠ 2 then .next (s.reject .unknownMessageKind)
  else
    s.withBytes .tx headerBytes (s.cur.toNat - headerBytes) fun body =>
      match s.memWrite .tx 0 (encodeHeader (s.frameHeader kind body)) with
      | .error f => .fault f
      | .ok t => .next ({ t with frameLen := s.cur, phase := .finalized }.respond .ok [s.cur] [])

/-- AS_FRAME (R195). -/
def execAsFrame (s : State) : Outcome :=
  if s.phase ≠ .finalized then .next (s.reject .sequenceError)
  else s.withBytes .tx 0 s.frameLen.toNat fun frame => .next (s.respond .ok [s.frameLen] frame)

end Sys2Proof.Machine
end

