-- ==== Sys2Proof/Machine/FrameDecode.lean ====
section
/-!
DEFINITION. The meanings of the frame decoder's commands: RX_LOAD, FRAME_PARSE, MSG_TYPE, VERIFY, and the two views
of a parsed frame (42_frame_decode.md).
-/
namespace Sys2Proof.Machine

/-- RX_LOAD (R141): RX[N:RXCAP) keeps its old bytes. -/
def execRxLoad (data : List Byte) (s : State) : Outcome :=
  .next
    (if s.size .rx < data.length then s.reject .bufferOverrun
     else { (s.putBytes .rx 0 data).clearValid with rxLen := BitVec.ofNat 32 data.length }.respond .ok [] [])

/-- FRAME_PARSE (R145): it completes with the clamped views, and TRUNCATED_FRAME reports that they are clamped (R148). -/
def execFrameParse (s : State) : Outcome :=
  s.withRxHeader fun h =>
    let truncated := isTruncated h s.rxLen.toNat
    let t := { ((s.setHeader h).setViews h) with hdrValid := true, frameValid := true, trunc := truncated }
    .next (t.respond (if truncated then .truncatedFrame else .ok) (headerValues h ++ t.viewValues) [])

/-- MSG_TYPE (R153): the masked value is returned with OK and with UNKNOWN_MESSAGE_KIND. -/
def execMsgType (s : State) : Outcome :=
  let masked := s.hOptions &&& s.params.kindMask
  .next
    (if s.hdrValid = false then s.reject .sequenceError
     else
      match kindOf s.params.kindMask s.hOptions with
      | .ok _ => s.respond .ok [masked.zeroExtend 32] []
      | .error st => s.respond st [masked.zeroExtend 32] [])

/-- `topic()` (R147): the bytes of RX in the topic view of a completed parse. The view is a pair of offsets the host holds; no
command copies its bytes into a response. -/
def State.topicView (s : State) : Except Fault (List Byte) := s.memRead .rx s.vTopicOff.toNat s.vTopicLen.toNat

/-- `payload()` (R147): the bytes of RX in the payload view of a completed parse. -/
def State.payloadView (s : State) : Except Fault (List Byte) := s.memRead .rx s.vPayloadOff.toNat s.vPayloadLen.toNat

/-- "the topic view followed by the payload view" (R156), by the V_* registers (R35). -/
def State.viewedBytes (s : State) : Except Fault (List Byte) := do
  let topic ← s.topicView
  let payload ← s.payloadView
  return topic ++ payload

/-- `MemRead(RX, 16, n)` of R156, by H_TOPIC_LEN and H_DATA_LEN. -/
def State.declaredBytes (s : State) : Except Fault (List Byte) :=
  s.memRead .rx headerBytes (s.hTopicLen.toNat + s.hDataLen.toNat)

/-- The bytes VERIFY checksums. R35 has it read the V_* registers, R156 H_TOPIC_LEN and H_DATA_LEN. Both give one range in
every state of R41 with FRAME_VALID = 1 and TRUNC = 0; where they do not, the choice is open (DESIGN CHOICE, log 18). -/
def State.checkedBytes (s : State) : Except Fault (List Byte) :=
  if ¬ s.viewsDeclared ∧ Config.verifyTakesViews = true then s.viewedBytes else s.declaredBytes

/-- The last check of VERIFY (R156): the checksum of the frame's bytes against H_CHECKSUM. -/
def State.verdict (s : State) (bs : List Byte) : State :=
  if crc32 bs ≠ s.hChecksum then s.respond .checksumMismatch [crc32 bs, s.hChecksum] []
  else s.respond .ok [crc32 bs] []

/-- VERIFY (R35, R156), in the check order of R157: FRAME_VALID, magic, truncation, checksum. -/
def execVerify (s : State) : Outcome :=
  if s.frameValid = false then .next (s.reject .sequenceError)
  else if s.hMagic ≠ s.params.magic then .next (s.reject .invalidMagic)
  else if s.trunc = true then .next (s.reject .truncatedFrame)
  else
    match s.checkedBytes with
    | .ok bs => .next (s.verdict bs)
    | .error f => .fault f

end Sys2Proof.Machine
end

