-- ==== Sys2Proof/Machine/HeaderCodec.lean ====
section
/-!
DEFINITION. The meanings of HDR_ENCODE and HDR_DECODE (40_header_codec.md).
-/
namespace Sys2Proof.Machine

/-- HDR_ENCODE (R103): the fields are encoded as given. -/
def execHdrEncode (magic checksum : Word) (options topicLen : Half) (dataLen : Word) (s : State) : Outcome :=
  .next (s.respond .ok [] (encodeHeader { magic, checksum, options, topicLen, dataLen }))

/-- HDR_DECODE (R104): FRAME_VALID and TRUNC are cleared on every outcome; H_* keep their old values on TRUNCATED_HEADER. -/
def execHdrDecode (s : State) : Outcome :=
  s.withRxHeader fun h =>
    .next ({ (s.clearFrameValid.setHeader h) with hdrValid := true }.respond .ok (headerValues h) [])

end Sys2Proof.Machine
end

