-- ==== Sys2Proof/Machine/Dispatch.lean ====
section
/-!
DEFINITION. The dispatch of an instruction to its meaning (44_control.md R211): one arm per row of the opcode table.
-/
namespace Sys2Proof.Machine

/-- The effect of one instruction (R211). -/
def exec (i : Instr) (s : State) : Host.Outcome State Fault Refusal :=
  match i with
  | .crcInit => Sys2Proof.Machine.execCrcInit s
  | .crcUpdate data => Sys2Proof.Machine.execCrcUpdate data s
  | .crcFinal => Sys2Proof.Machine.execCrcFinal s
  | .crcOneshot data => Sys2Proof.Machine.execCrcOneshot data s
  | .hdrEncode magic checksum options topicLen dataLen => Sys2Proof.Machine.execHdrEncode magic checksum options topicLen dataLen s
  | .hdrDecode => Sys2Proof.Machine.execHdrDecode s
  | .msgType => Sys2Proof.Machine.execMsgType s
  | .frameParse => Sys2Proof.Machine.execFrameParse s
  | .verify => Sys2Proof.Machine.execVerify s
  | .rxLoad data => Sys2Proof.Machine.execRxLoad data s
  | .bldReset => Sys2Proof.Machine.execBldReset s
  | .setTopic data => Sys2Proof.Machine.execSetTopic data s
  | .writeRaw data => Sys2Proof.Machine.execWriteRaw data s
  | .writeVia valueId => Sys2Proof.Machine.execWriteVia valueId s
  | .finalize kind => Sys2Proof.Machine.execFinalize kind s
  | .asFrame => Sys2Proof.Machine.execAsFrame s
  | .getStatus => Sys2Proof.Machine.execGetStatus s

end Sys2Proof.Machine
end

