-- ==== Sys2Proof/Machine/Port.lean ====
section
/-!
DEFINITION. What the block does with an event of the host (44_control.md R211, R213): a command, or a reset.
-/
namespace Sys2Proof.Machine

/-- A command that is ill-formed is rejected with ILLEGAL_COMMAND before anything else (R83, R224); any other runs as the one
instruction it selects (R211). -/
def State.runCommand (s : State) (c : Command) : Outcome :=
  match decode c with
  | .ok i => exec i s
  | .error _ => .next s.rejectIllFormed

/-- Carry out an event of the host: a reset event resets the block (R250). -/
def State.runEvent (s : State) : HostEvent → Outcome
  | .reset => .next s.resetEvent
  | .command c => s.runCommand c

/-- With no event the block holds its state (R236). -/
def State.runIdle (s : State) : Outcome := .next s

end Sys2Proof.Machine
end

