-- ==== Sys2Proof/Machine/Step.lean ====
section
/-!
DEFINITION. One step of the machine (44_control.md R211): the host's next event is taken from the port and carried out.
-/
namespace Sys2Proof.Machine

/-- One step: the first event at the port, if there is one. -/
def step (s : State) : Host.Outcome State Fault Refusal :=
  match s.inbox with
  | [] => s.runIdle
  | event :: rest => (s.taken rest).runEvent event

/-- `s` with the instruction whose bits are `w` as the command the next step takes (log 13). -/
def State.withFetchWord (s : State) (nbits w : Nat) : State := s.issue (Command.ofTableBits nbits w)

end Sys2Proof.Machine
end

