-- ==== Sys2Proof/Machine/Assembler.lean ====
section
/-!
DEFINITION. The assembler syntax of a command line (30_encoding.md R89) and the macros (R90). Neither adds behaviour: a
line stands for a command, and a macro for a sequence of commands (92_eei_decisions.md D38).
-/
namespace Sys2Proof.Machine

/-! ## Lines (R89) -/

/-- The data operand of a line: a quoted ASCII string or a bracketed byte list. -/
inductive AsmData where
  | ascii (text : List Char)
  | bytes (bs : List Nat)
  deriving DecidableEq, Repr

/-- The kind operand of FINALIZE: a name or a number. -/
inductive AsmKind where
  | push
  | subscribe
  | number (n : Nat)
  deriving DecidableEq, Repr

/-- A line, by the operands its mnemonic takes. -/
inductive AsmLine where
  | hdrEncode (magic checksum options topicLen dataLen : Nat)
  | writeVia (valueId : Nat)
  | finalize (kind : AsmKind)
  /-- A data-bearing command. -/
  | withData (op : Op) (data : AsmData)
  /-- A command written as its mnemonic alone. -/
  | bare (op : Op)
  deriving DecidableEq, Repr

/-- A number that fits `w` bits. -/
def asmNumber (w n : Nat) : Option (BitVec w) := if n < 2 ^ w then some (BitVec.ofNat w n) else none

/-- The bytes a data operand stands for: ASCII text without a terminator (R14), or the bytes listed. -/
def asmBytes : AsmData → Option (List Byte)
  | .ascii text => text.mapM fun c => if c.toNat < 128 then some (BitVec.ofNat 8 c.toNat) else none
  | .bytes bs => bs.mapM (asmNumber 8)

/-- The kind a kind operand stands for. -/
def asmKind : AsmKind → Option Byte
  | .push => some 1
  | .subscribe => some 2
  | .number n => asmNumber 8 n

/-- The instruction a line stands for, if its operands are in range and are those its mnemonic takes. -/
def asmInstr : AsmLine → Option Instr
  | .hdrEncode magic checksum options topicLen dataLen =>
    match asmNumber 32 magic, asmNumber 32 checksum, asmNumber 16 options, asmNumber 16 topicLen, asmNumber 32 dataLen with
    | some m, some c, some o, some t, some d => some (.hdrEncode m c o t d)
    | _, _, _, _, _ => none
  | .writeVia valueId => (asmNumber 32 valueId).map .writeVia
  | .finalize kind => (asmKind kind).map .finalize
  | .withData op data =>
    match op with
    | .crcUpdate => (asmBytes data).map .crcUpdate
    | .crcOneshot => (asmBytes data).map .crcOneshot
    | .rxLoad => (asmBytes data).map .rxLoad
    | .setTopic => (asmBytes data).map .setTopic
    | .writeRaw => (asmBytes data).map .writeRaw
    | .crcInit | .crcFinal | .hdrEncode | .hdrDecode | .msgType | .frameParse | .verify
    | .bldReset | .writeVia | .finalize | .asFrame | .getStatus => none
  | .bare op =>
    match op with
    | .crcInit => some .crcInit
    | .crcFinal => some .crcFinal
    | .hdrDecode => some .hdrDecode
    | .msgType => some .msgType
    | .frameParse => some .frameParse
    | .verify => some .verify
    | .bldReset => some .bldReset
    | .asFrame => some .asFrame
    | .getStatus => some .getStatus
    | .crcUpdate | .crcOneshot | .hdrEncode | .rxLoad | .setTopic | .writeRaw | .writeVia | .finalize => none

/-- The command a line encodes (R89). -/
def asmCommand (l : AsmLine) : Option Command := (asmInstr l).map encode

/-! ## The text of a line (R89; the lexical details the rule leaves open are log 16) -/

/-- The mnemonics, as the opcode table spells them. -/
def mnemonic : Op → String
  | .crcInit => "CRC_INIT"
  | .crcUpdate => "CRC_UPDATE"
  | .crcFinal => "CRC_FINAL"
  | .crcOneshot => "CRC_ONESHOT"
  | .hdrEncode => "HDR_ENCODE"
  | .hdrDecode => "HDR_DECODE"
  | .msgType => "MSG_TYPE"
  | .frameParse => "FRAME_PARSE"
  | .verify => "VERIFY"
  | .rxLoad => "RX_LOAD"
  | .bldReset => "BLD_RESET"
  | .setTopic => "SET_TOPIC"
  | .writeRaw => "WRITE_RAW"
  | .writeVia => "WRITE_VIA"
  | .finalize => "FINALIZE"
  | .asFrame => "AS_FRAME"
  | .getStatus => "GET_STATUS"

/-- The opcode a mnemonic names. -/
def asmOp (text : List Char) : Option Op := Op.all.find? fun op => (mnemonic op).toList == text

/-- Text without the spaces around it. -/
def trimSpaces (text : List Char) : List Char :=
  ((text.dropWhile (· == ' ')).reverse.dropWhile (· == ' ')).reverse

/-- The value of a digit, up to base 16. -/
def digitValue (c : Char) : Option Nat :=
  let n := c.toNat
  if 48 ≤ n ∧ n ≤ 57 then some (n - 48)
  else if 65 ≤ n ∧ n ≤ 70 then some (n - 55)
  else if 97 ≤ n ∧ n ≤ 102 then some (n - 87)
  else none

/-- The number some digits write in a base. -/
def digitsValue (base : Nat) (text : List Char) : Option Nat :=
  text.foldlM (fun n c => (digitValue c).bind fun d => if d < base then some (n * base + d) else none) 0

/-- A number: decimal, or hexadecimal after `0x` (R14). -/
def lexNumber (text : List Char) : Option Nat :=
  match trimSpaces text with
  | [] => none
  | '0' :: 'x' :: [] => none
  | '0' :: 'x' :: digits => digitsValue 16 digits
  | digits => digitsValue 10 digits

/-- Numbers with commas between them. -/
def lexNumbers (text : List Char) : Option (List Nat) := (text.splitOn ',').mapM lexNumber

/-- The text of a quoted string after its opening quote: a backslash takes the next character as it is, and nothing may
follow the closing quote. -/
def lexQuoted : List Char → Option (List Char)
  | [] => none
  | ['"'] => some []
  | '"' :: _ => none
  | '\\' :: c :: rest => (lexQuoted rest).map (c :: ·)
  | c :: rest => (lexQuoted rest).map (c :: ·)

/-- A data operand. -/
def lexData (text : List Char) : Option AsmData :=
  match trimSpaces text with
  | '"' :: rest => (lexQuoted rest).map .ascii
  | '[' :: rest =>
    match rest.reverse with
    | ']' :: inner =>
      let inside := inner.reverse
      if trimSpaces inside = [] then some (.bytes []) else (lexNumbers inside).map .bytes
    | _ => none
  | _ => none

/-- A kind operand. -/
def lexKind (text : List Char) : Option AsmKind :=
  if trimSpaces text = "PUSH".toList then some .push
  else if trimSpaces text = "SUBSCRIBE".toList then some .subscribe
  else (lexNumber text).map .number

/-- The operands of a line whose mnemonic names `op`. -/
def lexOperands (op : Op) (text : List Char) : Option AsmLine :=
  match op with
  | .hdrEncode =>
    match lexNumbers text with
    | some [magic, checksum, options, topicLen, dataLen] => some (.hdrEncode magic checksum options topicLen dataLen)
    | _ => none
  | .writeVia => (lexNumber text).map .writeVia
  | .finalize => (lexKind text).map .finalize
  | .crcUpdate | .crcOneshot | .rxLoad | .setTopic | .writeRaw => (lexData text).map (.withData op)
  | .crcInit | .crcFinal | .hdrDecode | .msgType | .frameParse | .verify | .bldReset | .asFrame | .getStatus =>
    if trimSpaces text = [] then some (.bare op) else none

/-- A line of assembler text: `MNEMONIC operands` (R89). -/
def lexLine (text : List Char) : Option AsmLine :=
  let line := trimSpaces text
  let name := line.takeWhile (· != ' ')
  (asmOp name).bind fun op => lexOperands op (line.drop name.length)

/-- The command a line of assembler text encodes (R89). -/
def asmText (text : List Char) : Option Command := (lexLine text).bind asmCommand

/-! ## Macros (R90) -/

/-- The three pseudo-commands. -/
inductive Macro where
  | build (topic payload : List Byte) (kind : Byte)
  | parseChecked (frame : List Byte)
  | crcStream (parts : List (List Byte))
  deriving DecidableEq, Repr

/-- The sequence a macro expands to. -/
def macroExpansion : Macro → List Instr
  | .build topic payload kind => [.bldReset, .setTopic topic, .writeRaw payload, .finalize kind, .asFrame]
  | .parseChecked frame => [.rxLoad frame, .frameParse, .verify, .msgType]
  | .crcStream parts => .crcInit :: (parts.map .crcUpdate ++ [.crcFinal])

/-- Whether the assembler's user goes on after a command's status: a macro stops at the first status that is not OK,
except that PARSE_CHECKED goes on past a TRUNCATED_FRAME from FRAME_PARSE. -/
def macroGoesOn (m : Macro) (op : Op) (st : Status) : Bool :=
  match m with
  | .parseChecked _ => decide (st = .ok ∨ (op = .frameParse ∧ st = .truncatedFrame))
  | .build _ _ _ | .crcStream _ => decide (st = .ok)

/-- Go on from a next state; a stop stays a stop. -/
def andThen (o : Outcome) (k : State → Outcome) : Outcome :=
  match o with
  | .next s => k s
  | .fault f => .fault f
  | .refused r => .refused r

/-- Issue commands one after the other, each taking effect before the next (R64), whatever their statuses. -/
def execAll : List Instr → State → Outcome
  | [], s => .next s
  | i :: rest, s => andThen (exec i s) (execAll rest)

/-- The commands of macro `m` that are still to be issued, under the stopping rule of R90. -/
def runMacroFrom (m : Macro) : List Instr → State → Outcome
  | [], s => .next s
  | i :: rest, s =>
    andThen (exec i s) fun t =>
      match t.resp with
      | some r => if macroGoesOn m i.op r.status then runMacroFrom m rest t else .next t
      | none => .next t

/-- A macro as the assembler's user runs it (R90). -/
def runMacro (m : Macro) (s : State) : Outcome := runMacroFrom m (macroExpansion m) s

end Sys2Proof.Machine
end

