-- ==== Sys2Proof/Safety.lean ====
section
/-!
DEFINITION. The terms claims are stated in: the invariants of 10_state.md R40 and R41, the writer table R44 and the stored
ranges, the statuses each command may answer (60_exceptions.md R221), and when two states agree on one unit (R259).
-/
namespace Sys2Proof.Machine

/-! ## Registers by name, and what each command may write (R44) -/

/-- The registers of R24–R36. -/
inductive Reg where
  | crc | phase | cur | bTopicLen | bDataLen | frameLen | rxLen | hdrValid | frameValid | trunc
  | hMagic | hChecksum | hOptions | hTopicLen | hDataLen | vTopicOff | vTopicLen | vPayloadOff | vPayloadLen | err
  deriving DecidableEq, Repr

/-- The value of a register, as a number. -/
def State.reg (s : State) : Reg → Nat
  | .crc => s.crc.toNat
  | .phase => (phaseCode s.phase).toNat
  | .cur => s.cur.toNat
  | .bTopicLen => s.bTopicLen.toNat
  | .bDataLen => s.bDataLen.toNat
  | .frameLen => s.frameLen.toNat
  | .rxLen => s.rxLen.toNat
  | .hdrValid => (bitCode s.hdrValid).toNat
  | .frameValid => (bitCode s.frameValid).toNat
  | .trunc => (bitCode s.trunc).toNat
  | .hMagic => s.hMagic.toNat
  | .hChecksum => s.hChecksum.toNat
  | .hOptions => s.hOptions.toNat
  | .hTopicLen => s.hTopicLen.toNat
  | .hDataLen => s.hDataLen.toNat
  | .vTopicOff => s.vTopicOff.toNat
  | .vTopicLen => s.vTopicLen.toNat
  | .vPayloadOff => s.vPayloadOff.toNat
  | .vPayloadLen => s.vPayloadLen.toNat
  | .err => (statusCode s.err).toNat

/-- The valid bits (R31–R33). -/
def validBits : List Reg := [.hdrValid, .frameValid, .trunc]

/-- The decoded header registers (R34). -/
def headerRegs : List Reg := [.hMagic, .hChecksum, .hOptions, .hTopicLen, .hDataLen]

/-- The view registers (R35). -/
def viewRegs : List Reg := [.vTopicOff, .vTopicLen, .vPayloadOff, .vPayloadLen]

/-- The writer table (R44), "each only the fields its rule names": the registers a well-formed command may write. -/
def writesRegs : Op → List Reg
  | .crcInit | .crcUpdate => [.crc, .err]
  | .crcFinal | .crcOneshot | .hdrEncode | .msgType | .verify | .asFrame => [.err]
  | .hdrDecode => validBits ++ headerRegs ++ [.err]
  | .frameParse => validBits ++ headerRegs ++ viewRegs ++ [.err]
  | .rxLoad => .rxLen :: validBits ++ [.err]
  | .bldReset => [.phase, .cur, .bTopicLen, .bDataLen, .frameLen, .err]
  | .setTopic => [.bTopicLen, .cur, .phase, .err]
  | .writeRaw | .writeVia => [.bDataLen, .cur, .phase, .err]
  | .finalize => [.frameLen, .phase, .err]
  | .getStatus => []

/-- The bytes `lo ≤ a < hi` of a space that a command may store to, computed as its meaning computes them: RX[0:N) (R141),
TX[16:16+N) (R180), TX[CUR:CUR+N) (R182), TX[CUR:CAPACITY) (R188), TX[0:16) (R191). -/
def storeSpan (s : State) : Instr → Option (Space × Nat × Nat)
  | .rxLoad data => some (.rx, 0, data.length)
  | .setTopic data => some (.tx, headerBytes, headerBytes + data.length)
  | .writeRaw data => some (.tx, s.cur.toNat, s.cur.toNat + data.length)
  | .writeVia _ => some (.tx, s.cur.toNat, s.size .tx)
  | .finalize _ => some (.tx, 0, headerBytes)
  | .crcInit | .crcUpdate _ | .crcFinal | .crcOneshot _ | .hdrEncode _ _ _ _ _ | .hdrDecode | .msgType | .frameParse
  | .verify | .bldReset | .asFrame | .getStatus => none

/-- Byte `a` of space `sp` lies outside a stored range. -/
def outsideSpan (span : Option (Space × Nat × Nat)) (sp : Space) (a : Nat) : Prop :=
  ∀ lo hi, span = some (sp, lo, hi) → a < lo ∨ hi ≤ a

/-- What no command changes but WRITE_VIA, which takes the serializer's answer: the parameters (R42), what the host does
next, and the serializer's end. -/
def SameSurroundings (s t : State) : Prop :=
  t.params = s.params ∧ t.inbox = s.inbox ∧ t.serAnswers = s.serAnswers ∧ t.serRequest = s.serRequest

/-- What a command leaves unchanged: the registers it does not write (R44), every byte
of memory outside its stored range, and the surroundings, which only WRITE_VIA changes. -/
def Framed (i : Instr) (s t : State) : Prop :=
  (∀ r, r ∉ writesRegs i.op → t.reg r = s.reg r) ∧
  (∀ sp a, outsideSpan (storeSpan s i) sp a → t.readByte sp a = s.readByte sp a) ∧
  t.params = s.params ∧ t.inbox = s.inbox ∧ (i.op ≠ .writeVia → SameSurroundings s t)

/-! ## Bytes -/

/-- The bytes of a space from offset `a` up are `bs`. -/
def Holds (s : State) (sp : Space) (a : Nat) (bs : List Byte) : Prop :=
  ∀ j, j < bs.length → s.readByte sp (a + j) = bs[j]?

/-- `m'` is `m` with the bytes `bs` written from offset `a` up (R53). -/
def WrittenAt (m m' : Memory) (a : Nat) (bs : List Byte) : Prop :=
  ∀ b, m'.read b = if a ≤ b ∧ b < a + bs.length then bs[b - a]? else m.read b

/-! ## Ill-formed commands (R83) -/

/-- Every command with this OPC that is ill-formed by R83 (b) to (e), for the operand count k and the two columns of R80
given, is rejected with ILLEGAL_COMMAND and has no other effect. -/
def IllFormedRejected (code : Byte) (k : Nat) (dataAllowed argAllowed : Bool) : Prop :=
  ∀ (s : State) (c : Command) (rest : List HostEvent), s.inbox = .command c :: rest → c.w0.extractLsb' 0 8 = code →
    (c.w0.extractLsb' 16 16 ≠ 0#16 ∨ (c.w0.extractLsb' 8 8 ≠ 0#8 ∧ argAllowed = false) ∨ c.ops.length ≠ k ∨
      (c.data ≠ [] ∧ dataAllowed = false)) →
    step s = .next { s with
      inbox := rest, err := .illegalCommand, resp := some { status := .illegalCommand, values := [], rdata := [] } }

/-! ## Statuses -/

/-- The statuses a well-formed command may answer (R85, R221). -/
def mayAnswer : Op → List Status
  | .crcInit | .crcUpdate | .crcFinal | .crcOneshot | .hdrEncode | .bldReset | .getStatus => [.ok]
  | .hdrDecode => [.ok, .truncatedHeader]
  | .msgType => [.ok, .sequenceError, .unknownMessageKind]
  | .frameParse => [.ok, .truncatedHeader, .truncatedFrame]
  | .verify => [.ok, .sequenceError, .invalidMagic, .truncatedFrame, .checksumMismatch]
  | .rxLoad => [.ok, .bufferOverrun]
  | .setTopic | .writeRaw => [.ok, .sequenceError, .capacityExceeded]
  | .writeVia => [.ok, .sequenceError, .capacityExceeded, .serializerFailed]
  | .finalize => [.ok, .sequenceError, .unknownMessageKind]
  | .asFrame => [.ok, .sequenceError]

/-- The state after a command that did nothing but answer (R36, R84): ERR and the response. -/
def replied (s : State) (st : Status) (values : List Word) (rdata : List Byte) : State :=
  { s with err := st, resp := some { status := st, values := values, rdata := rdata } }

/-- A state whose last response carries the status `st`. -/
def answered (t : State) (st : Status) : Prop := ∃ values rdata, t.resp = some ⟨st, values, rdata⟩

/-! ## The builder's phases (R171) -/

/-- The phase transition table (R171): the phase after a command that succeeds, or none where the cell is SEQ. Commands
that are no builder's keep the phase. -/
def nextPhase : Op → Phase → Option Phase
  | .bldReset, _ => some .empty
  | .setTopic, .empty => some .topic
  | .setTopic, _ => none
  | .writeRaw, .topic => some .data
  | .writeRaw, _ => none
  | .writeVia, .topic => some .data
  | .writeVia, _ => none
  | .finalize, .data => some .finalized
  | .finalize, _ => none
  | .asFrame, .finalized => some .finalized
  | .asFrame, _ => none
  | .crcInit, p | .crcUpdate, p | .crcFinal, p | .crcOneshot, p | .hdrEncode, p | .hdrDecode, p | .msgType, p
  | .frameParse, p | .verify, p | .rxLoad, p | .getStatus, p => some p

/-! ## Invariants -/

/-- Every byte `lo ≤ a < hi` holds a value. -/
def spanWritten (m : Memory) (lo hi : Nat) : Prop := ∀ a, lo ≤ a → a < hi → (m.read a).isSome = true

/-- Both memories are canonical and lie inside their spaces (R50). -/
structure MemoryInv (s : State) : Prop where
  txCanonical : s.tx.wf
  rxCanonical : s.rx.wf
  txInside : ∀ c ∈ s.tx, c.1 < s.size .tx
  rxInside : ∀ c ∈ s.rx, c.1 < s.size .rx

/-- The builder invariant (R40). -/
structure BuilderInv (s : State) : Prop where
  empty : s.phase = .empty → s.cur = 16 ∧ s.bTopicLen = 0 ∧ s.bDataLen = 0 ∧ s.frameLen = 0
  topic : s.phase = .topic →
    s.cur.toNat = headerBytes + s.bTopicLen.toNat ∧ s.cur.toNat ≤ s.size .tx ∧ s.bDataLen = 0 ∧ s.frameLen = 0
  data : s.phase = .data →
    s.cur.toNat = headerBytes + s.bTopicLen.toNat + s.bDataLen.toNat ∧ s.cur.toNat ≤ s.size .tx ∧ s.frameLen = 0
  finalized : s.phase = .finalized →
    s.frameLen = s.cur ∧ s.cur.toNat = headerBytes + s.bTopicLen.toNat + s.bDataLen.toNat ∧ s.cur.toNat ≤ s.size .tx ∧
    ∃ kind body, (kind = 1 ∨ kind = 2) ∧ s.tx.readBytes headerBytes (s.cur.toNat - headerBytes) = some body ∧
      s.tx.readBytes 0 headerBytes = some (encodeHeader (s.frameHeader kind body))
  written : s.phase ≠ .empty → spanWritten s.tx headerBytes s.cur.toNat

/-- The decoder invariant (R41), with R33's "TRUNC = 1 implies FRAME_VALID = 1" and the bytes of `RX[0 : RXLEN)` written. -/
structure DecoderInv (s : State) : Prop where
  rxLenFits : s.rxLen.toNat ≤ s.size .rx
  frameHasHeader : s.frameValid = true → s.hdrValid = true
  truncHasFrame : s.trunc = true → s.frameValid = true
  views : s.frameValid = true →
    s.vTopicOff = 16 ∧ s.vPayloadOff.toNat = headerBytes + s.vTopicLen.toNat ∧
    s.vPayloadOff.toNat + s.vPayloadLen.toNat = min (declaredEnd s.header) s.rxLen.toNat ∧
    s.vTopicLen.toNat ≤ s.hTopicLen.toNat ∧ s.vPayloadLen.toNat ≤ s.hDataLen.toNat ∧
    (s.trunc = false ↔ s.vTopicLen.toNat = s.hTopicLen.toNat ∧ s.vPayloadLen.toNat = s.hDataLen.toNat)
  header : s.hdrValid = true →
    headerBytes ≤ s.rxLen.toNat ∧ ∃ bytes, s.rx.readBytes 0 headerBytes = some bytes ∧ headerFields bytes = s.header
  written : spanWritten s.rx 0 s.rxLen.toNat

/-- The invariant of the block: it holds after reset and every step keeps it. -/
structure Inv (s : State) : Prop where
  memory : MemoryInv s
  builder : BuilderInv s
  decoder : DecoderInv s

/-! ## Agreement on one unit (R259) -/

/-- Two states agree on all that the decoder's commands use. -/
def SameDecoder (s t : State) : Prop :=
  t.params = s.params ∧ t.rxLen = s.rxLen ∧ t.hdrValid = s.hdrValid ∧ t.frameValid = s.frameValid ∧ t.trunc = s.trunc ∧
  t.header = s.header ∧ t.viewValues = s.viewValues ∧ t.rx = s.rx

/-- Two states agree on all that the builder's commands use. -/
def SameBuilder (s t : State) : Prop :=
  t.params = s.params ∧ t.phase = s.phase ∧ t.cur = s.cur ∧ t.bTopicLen = s.bTopicLen ∧ t.bDataLen = s.bDataLen ∧
  t.frameLen = s.frameLen ∧ t.tx = s.tx ∧ t.serAnswers = s.serAnswers

/-- Two outcomes agree: both go on, to states related by `R` that give the same response, or both stop for one reason. -/
def OutcomesAgree (R : State → State → Prop) : Outcome → Outcome → Prop
  | .next s, .next t => R s t ∧ t.resp = s.resp
  | .fault f, .fault g => g = f
  | .refused q, .refused r => r = q
  | .next _, .fault _ | .next _, .refused _ | .fault _, .next _ | .fault _, .refused _ | .refused _, .next _
  | .refused _, .fault _ => False

/-- The decoder's commands (R259: HDR_DECODE, MSG_TYPE, FRAME_PARSE, VERIFY, RX_LOAD). -/
def decoderOps : List Op := [.hdrDecode, .msgType, .frameParse, .verify, .rxLoad]

/-- The builder's commands (R171). -/
def builderOps : List Op := [.bldReset, .setTopic, .writeRaw, .writeVia, .finalize, .asFrame]

end Sys2Proof.Machine
end

