-- ==== Sys2Proof/Certificates/Slice0/Obligations.lean ====
section
/-!
DEFINITION. The statements for the provers. Each formalises what the docstring's rules of spec/ say. A statement over
`State` holds for every instance parameter (State.params), so for every legal MAGIC, KIND_MASK, CAPACITY, RXCAP and
HAS_SERIALIZER.
-/

open Sys2Proof Sys2Proof.Machine

/-! ## Encoding -/

/-- Decoding the command that encodes an instruction gives the instruction back, with every operand at every value
(R80, R81, R82). -/
def Obligations.DecodeOfEncodeIsTheInstruction : Prop :=
  ∀ i : Instr, decode (encode i) = .ok i

/-- Each well-formed command is the encoding of the instruction it selects: no two commands select one instruction, and no
bit of a command is ignored (R79, R82, R83). -/
def Obligations.EncodeOfDecodeIsTheCommand : Prop :=
  ∀ (c : Command) (i : Instr), decode c = .ok i → encode i = c

/-- The operand shapes (R80): OPC, mnemonic, k, whether DATA may be non-empty, whether ARG may be non-zero. -/
def Obligations.OpcodeMapRows : Prop :=
  Op.all.map (fun op => (op, mnemonic op, op.code, op.operandWords, op.takesData, op.takesArg)) =
    [(.crcInit, "CRC_INIT", 0x01#8, 0, false, false), (.crcUpdate, "CRC_UPDATE", 0x02#8, 0, true, false),
     (.crcFinal, "CRC_FINAL", 0x03#8, 0, false, false), (.crcOneshot, "CRC_ONESHOT", 0x04#8, 0, true, false),
     (.hdrEncode, "HDR_ENCODE", 0x10#8, 4, false, false), (.hdrDecode, "HDR_DECODE", 0x11#8, 0, false, false),
     (.msgType, "MSG_TYPE", 0x12#8, 0, false, false), (.frameParse, "FRAME_PARSE", 0x13#8, 0, false, false),
     (.verify, "VERIFY", 0x14#8, 0, false, false), (.rxLoad, "RX_LOAD", 0x15#8, 0, true, false),
     (.bldReset, "BLD_RESET", 0x20#8, 0, false, false), (.setTopic, "SET_TOPIC", 0x21#8, 0, true, false),
     (.writeRaw, "WRITE_RAW", 0x22#8, 0, true, false), (.writeVia, "WRITE_VIA", 0x23#8, 1, false, false),
     (.finalize, "FINALIZE", 0x24#8, 0, false, true), (.asFrame, "AS_FRAME", 0x25#8, 0, false, false),
     (.getStatus, "GET_STATUS", 0x30#8, 0, false, false)]

/-- A command word matches a row of the opcode table, `(W0 & mask) = match`, exactly when its OPC names the row, RSVD is 0
and ARG is 0 unless the row is FINALIZE's; so no word matches two rows (R82). -/
def Obligations.TableRowMatchesExactlyItsWords : Prop :=
  ∀ (w : Word) (op : Op),
    ((w &&& op.tableMask) = op.tableMatch ↔
      Op.ofCode (w.extractLsb' 0 8) = some op ∧ w.extractLsb' 16 16 = 0#16 ∧ (op = .finalize ∨ w.extractLsb' 8 8 = 0#8)) ∧
    ∀ op', (w &&& op.tableMask) = op.tableMatch → (w &&& op'.tableMask) = op'.tableMatch → op' = op

/-- A few words written out from R79, R80, R82 and R89 decode to the instructions they stand for, and three that R83 (a) to
(c) calls ill-formed to none. That 0x00000010 stands for HDR_ENCODE with four zero operand words is the model's choice and no
rule of the spec (log 13: in the table's numbering the operand words lie above the given bits, which are 0): as a command, the
bare word with no OPS is ill-formed by R83 (d). -/
def Obligations.SampleWordsDecode : Prop :=
  decodeTableWord 32 0x00000003 = some .crcFinal ∧ decodeTableWord 32 0x00000010 = some (.hdrEncode 0 0 0 0 0) ∧
  decodeTableWord 32 0x00000014 = some .verify ∧ decodeTableWord 32 0x00000124 = some (.finalize 1) ∧
  decodeTableWord 32 0x00000030 = some .getStatus ∧ decodeTableWord 32 0x00000130 = none ∧
  decodeTableWord 32 0x00010020 = none ∧ decodeTableWord 32 0x00000005 = none

/-- A command is ill-formed exactly by the grounds (a) to (e) of R83; its only effect is then `ERR <- ILLEGAL_COMMAND`, with
an empty response, before every check of the command's own rule; and every other command runs as exactly one instruction. -/
def Obligations.IllFormedCommandOnlySetsErr : Prop :=
  ∀ (s : State) (c : Command) (rest : List HostEvent), s.inbox = .command c :: rest →
    let illFormed : Prop :=
      (∀ op : Op, op.code ≠ c.w0.extractLsb' 0 8) ∨
      ∃ op : Op, op.code = c.w0.extractLsb' 0 8 ∧
        (c.w0.extractLsb' 16 16 ≠ 0#16 ∨ (c.w0.extractLsb' 8 8 ≠ 0#8 ∧ op ≠ .finalize) ∨
          c.ops.length ≠ op.operandWords ∨ (c.data ≠ [] ∧ op.takesData = false))
    (illFormed → step s = .next (replied { s with inbox := rest } .illegalCommand [] [])) ∧
    (¬illFormed → ∃ i : Instr, decode c = .ok i ∧ i.op.code = c.w0.extractLsb' 0 8 ∧
      step s = exec i { s with inbox := rest })

/-! ## The step -/

/-- A step runs the decoded instruction: when the command at the port decodes to `i`, the step is `exec i` at the state with
that command taken from the port (R211); with nothing issued the block holds its state (R236). -/
def Obligations.StepRunsTheDecodedInstruction : Prop :=
  (∀ (s : State) (c : Command) (rest : List HostEvent) (i : Instr), s.inbox = .command c :: rest → decode c = .ok i →
    step s = exec i { s with inbox := rest }) ∧
  (∀ (s : State) (i : Instr), i.WellFormed → step { s with inbox := .command (encode i) :: s.inbox } = exec i s) ∧
  (∀ s : State, s.inbox = [] → step s = .next s)

/-- The register values reset leaves (R43), for every instance; the hardware's own instance has MAGIC = 0xDEADBEEF (R5) and a
serializer (R17). What TX, RX and the interfaces hold is the model's choice (logs 2 and 4 to 7) and is not stated here. -/
def Obligations.ResetLeavesTheTabledValues : Prop :=
  (∀ p : Params, let s := State.resetOf p
    s.params = p ∧ s.crc = 0xFFFFFFFF ∧ s.phase = .empty ∧ s.cur = 16 ∧ s.bTopicLen = 0 ∧ s.bDataLen = 0 ∧
    s.frameLen = 0 ∧ s.rxLen = 0 ∧ s.hdrValid = false ∧ s.frameValid = false ∧ s.trunc = false ∧ s.hMagic = 0 ∧
    s.hChecksum = 0 ∧ s.hOptions = 0 ∧ s.hTopicLen = 0 ∧ s.hDataLen = 0 ∧ s.vTopicOff = 0 ∧ s.vTopicLen = 0 ∧
    s.vPayloadOff = 0 ∧ s.vPayloadLen = 0 ∧ s.err = .ok) ∧
  ∃ p : Params, State.reset = State.resetOf p ∧ p.magic = 0xDEADBEEF ∧ p.hasSerializer = true

/-- The reset event (R250, R251): whatever the state, every register is at its reset value afterwards and the parameters are
unchanged. That what the host and the serializer do next is unaffected, that the last response is dropped and that no byte of
TX or RX holds a value are the model's choices (logs 9, 5 and 2). -/
def Obligations.ResetEventRestoresEveryRegister : Prop :=
  ∀ (s : State) (rest : List HostEvent), s.inbox = .reset :: rest →
    ∃ t, step s = .next t ∧ (∀ r, t.reg r = (State.resetOf s.params).reg r) ∧ t.params = s.params ∧ t.inbox = rest ∧
      t.serAnswers = s.serAnswers ∧ t.resp = none ∧ ∀ sp a, t.readByte sp a = none

/-- No step changes the parameters (R42, R251). -/
def Obligations.ParametersNeverChange : Prop :=
  ∀ s t : State, step s = .next t → t.params = s.params

/-- ERR holds the status of the last command other than a well-formed GET_STATUS, which leaves it; an ill-formed GET_STATUS
writes ILLEGAL_COMMAND like any ill-formed command; ERR is OK at reset (R36). Every command gives a response (R84). -/
def Obligations.ErrHoldsTheStatusReturned : Prop :=
  State.reset.err = .ok ∧
  ∀ (s t : State) (c : Command) (rest : List HostEvent), s.inbox = .command c :: rest → step s = .next t →
    (∃ r, t.resp = some r ∧ (if decode c = .ok .getStatus then t.err = s.err else t.err = r.status)) ∧
    ∀ why, decode c = .error why → t.err = .illegalCommand

/-! ## Byte order, header functions, cursor, checksum function -/

/-- Each header field is the bits R71 gives it of the 16 bytes read as one big-endian number, and equivalently the value that
rd32 or rd16 reads at its offset. -/
def Obligations.HeaderFieldsAreBitsOfOneBigEndianNumber : Prop :=
  ∀ bytes : List Byte, bytes.length = 16 →
    let n := bytes.foldl (fun acc b => acc * 256 + b.toNat) 0
    let h := headerFields bytes
    h.magic.toNat = n / 2 ^ 96 ∧ h.checksum.toNat = n / 2 ^ 64 % 2 ^ 32 ∧ h.options.toNat = n / 2 ^ 48 % 2 ^ 16 ∧
    h.topicLen.toNat = n / 2 ^ 32 % 2 ^ 16 ∧ h.dataLen.toNat = n % 2 ^ 32 ∧
    h = { magic := rd32 bytes 0, checksum := rd32 bytes 4, options := rd16 bytes 8, topicLen := rd16 bytes 10,
          dataLen := rd32 bytes 12 }

/-- Big-endian reads invert big-endian writes at both widths (R57, R58). -/
def Obligations.BigEndianReadInvertsWrite : Prop :=
  (∀ (v : Word) (before after : List Byte), rd32 (before ++ be32 v ++ after) before.length = v) ∧
  (∀ (v : Half) (before after : List Byte), rd16 (before ++ be16 v ++ after) before.length = v)

/-- The round-trip law of the header codec (R102). -/
def Obligations.HeaderCodecRoundTrip : Prop :=
  (∀ h : Header, parseHeader (encodeHeader h) = .ok h) ∧
  (∀ s : List Byte, 16 ≤ s.length → ∃ h, parseHeader s = .ok h ∧ encodeHeader h = s.take 16)

/-- With 16 bytes the five cursor reads consume exactly bytes 0 to 15, give the header and cannot raise BUFFER_UNDERRUN;
with fewer they can (R60, R105). -/
def Obligations.CursorReadsTheHeaderExactly : Prop :=
  ∀ s : List Byte,
    if 16 ≤ s.length then cursorReadHeader { region := s, pos := 0 } = .ok (headerFields s, { region := s, pos := 16 })
    else cursorReadHeader { region := s, pos := 0 } = .error .bufferUnderrun

/-- The bitwise CRC equals the table-driven one, with the table entry of x being 8 bit steps from x (R123). -/
def Obligations.BitwiseCrcEqualsTableDriven : Prop :=
  ∀ (c : Word) (s : List Byte),
    crcUpdate c s =
      s.foldl (fun (r : Word) (b : Byte) =>
        (r >>> 8) ^^^ crcBits 8 (((r ^^^ b.zeroExtend 32).extractLsb' 0 8).zeroExtend 32)) c

/-- The source's check value: crc32("123456789") = 0xCBF43926 (R131). -/
def Obligations.CrcCheckValue : Prop :=
  crc32 [0x31, 0x32, 0x33, 0x34, 0x35, 0x36, 0x37, 0x38, 0x39] = 0xCBF43926

/-! ## Memory -/

/-- MemRead (R52): it answers the bytes of the range exactly when the range lies in the space, and the model's choice that a
byte nothing has written holds no value (log 2) adds: and each of them holds a value. -/
def Obligations.MemReadAnswersTheBytes : Prop :=
  ∀ (s : State) (sp : Space) (a n : Nat) (bs : List Byte),
    s.memRead sp a n = .ok bs ↔ a + n ≤ s.size sp ∧ bs.length = n ∧ Holds s sp a bs

/-- MemWrite (R53): with its precondition it puts each byte at its place and leaves every other byte of both spaces. -/
def Obligations.MemWriteWritesExactlyItsRange : Prop :=
  ∀ (s : State) (sp : Space) (a : Nat) (bs : List Byte), a + bs.length ≤ s.size sp →
    ∃ t, s.memWrite sp a bs = .ok t ∧ WrittenAt (s.mem sp) (t.mem sp) a bs ∧
      ∀ sp', sp' ≠ sp → t.mem sp' = s.mem sp'

/-! ## The checksum unit's commands -/

/-- CRC_INIT (R124). -/
def Obligations.CrcInitRule : Prop :=
  decode ⟨0x00000001, [], []⟩ = .ok .crcInit ∧ IllFormedRejected 0x01 0 false false ∧
  ∀ s : State, exec .crcInit s = .next (replied { s with crc := 0xFFFFFFFF } .ok [] [])

/-- CRC_UPDATE (R125). -/
def Obligations.CrcUpdateRule : Prop :=
  (∀ data, decode ⟨0x00000002, [], data⟩ = .ok (.crcUpdate data)) ∧ IllFormedRejected 0x02 0 true false ∧
  ∀ (s : State) (data : List Byte),
    exec (.crcUpdate data) s = .next (replied { s with crc := data.foldl crcStep s.crc } .ok [] [])

/-- CRC_FINAL (R126). -/
def Obligations.CrcFinalRule : Prop :=
  decode ⟨0x00000003, [], []⟩ = .ok .crcFinal ∧ IllFormedRejected 0x03 0 false false ∧
  ∀ s : State, exec .crcFinal s = .next (replied s .ok [s.crc ^^^ 0xFFFFFFFF] [])

/-- CRC_ONESHOT (R127). -/
def Obligations.CrcOneshotRule : Prop :=
  (∀ data, decode ⟨0x00000004, [], data⟩ = .ok (.crcOneshot data)) ∧ IllFormedRejected 0x04 0 true false ∧
  ∀ (s : State) (data : List Byte),
    exec (.crcOneshot data) s = .next (replied s .ok [data.foldl crcStep 0xFFFFFFFF ^^^ 0xFFFFFFFF] [])

/-- The streaming law (R128): however the bytes are divided, the stream's result is crc32 of the concatenation, the value
CRC_ONESHOT returns on it. -/
def Obligations.StreamingEqualsOneshot : Prop :=
  ∀ (s : State) (parts : List (List Byte)),
    ∃ t u, execAll (.crcInit :: (parts.map .crcUpdate ++ [.crcFinal])) s = .next t ∧
      exec (.crcOneshot parts.flatten) s = .next u ∧ t.resp = u.resp ∧ t.resp = some ⟨.ok, [crc32 parts.flatten], []⟩

/-! ## The header codec's commands -/

/-- HDR_ENCODE (R103), with the operand assembly of R81. -/
def Obligations.HdrEncodeRule : Prop :=
  (∀ (m c w d : Word), decode ⟨0x00000010, [m, c, w, d], []⟩ =
    .ok (.hdrEncode m c (w.extractLsb' 16 16) (w.extractLsb' 0 16) d)) ∧
  IllFormedRejected 0x10 4 false false ∧
  ∀ (s : State) (m c : Word) (o t : Half) (d : Word),
    exec (.hdrEncode m c o t d) s = .next (replied s .ok [] (be32 m ++ be32 c ++ be16 o ++ be16 t ++ be32 d))

/-- HDR_DECODE (R104): it completes with the header in RX[0:16), or is rejected with TRUNCATED_HEADER; either way FRAME_VALID
and TRUNC are cleared. -/
def Obligations.HdrDecodeRule : Prop :=
  decode ⟨0x00000011, [], []⟩ = .ok .hdrDecode ∧ IllFormedRejected 0x11 0 false false ∧
  ∀ s : State,
    (s.rxLen.toNat < 16 → exec .hdrDecode s =
      .next (replied { s with hdrValid := false, frameValid := false, trunc := false } .truncatedHeader [] [])) ∧
    (16 ≤ s.rxLen.toNat → 16 ≤ s.size .rx → ∀ bytes : List Byte, bytes.length = 16 → Holds s .rx 0 bytes →
      exec .hdrDecode s = .next (replied
        { s with
          hMagic := rd32 bytes 0, hChecksum := rd32 bytes 4, hOptions := rd16 bytes 8, hTopicLen := rd16 bytes 10,
          hDataLen := rd32 bytes 12, hdrValid := true, frameValid := false, trunc := false }
        .ok
        [rd32 bytes 0, rd32 bytes 4, ((rd16 bytes 8).zeroExtend 32 <<< 16) ||| (rd16 bytes 10).zeroExtend 32,
          rd32 bytes 12] []))

/-! ## The frame decoder's commands -/

/-- RX_LOAD (R141). -/
def Obligations.RxLoadRule : Prop :=
  (∀ data, decode ⟨0x00000015, [], data⟩ = .ok (.rxLoad data)) ∧ IllFormedRejected 0x15 0 true false ∧
  ∀ (s : State) (data : List Byte),
    if s.params.rxcap.toNat < data.length then exec (.rxLoad data) s = .next (replied s .bufferOverrun [] [])
    else
      ∃ (m : Memory) (n : Word), n.toNat = data.length ∧ WrittenAt s.rx m 0 data ∧
        exec (.rxLoad data) s = .next (replied
          { s with rx := m, rxLen := n, hdrValid := false, frameValid := false, trunc := false } .ok [] [])

/-- FRAME_PARSE (R145): with `end = min(16 + t + d, RXLEN)` and `topic_end = min(16 + t, end)` computed exactly. -/
def Obligations.FrameParseRule : Prop :=
  decode ⟨0x00000013, [], []⟩ = .ok .frameParse ∧ IllFormedRejected 0x13 0 false false ∧
  ∀ s : State,
    (s.rxLen.toNat < 16 → exec .frameParse s =
      .next (replied { s with hdrValid := false, frameValid := false, trunc := false } .truncatedHeader [] [])) ∧
    (16 ≤ s.rxLen.toNat → 16 ≤ s.size .rx → ∀ bytes : List Byte, bytes.length = 16 → Holds s .rx 0 bytes →
      let o := rd16 bytes 8
      let t := rd16 bytes 10
      let d := rd32 bytes 12
      let e := min (16 + t.toNat + d.toNat) s.rxLen.toNat
      let te := min (16 + t.toNat) e
      let truncated := decide (s.rxLen.toNat < 16 + t.toNat + d.toNat)
      ∃ vtl vpo vpl : Word, vtl.toNat = te - 16 ∧ vpo.toNat = te ∧ vpl.toNat = e - te ∧
        exec .frameParse s = .next (replied
          { s with
            hMagic := rd32 bytes 0, hChecksum := rd32 bytes 4, hOptions := o, hTopicLen := t, hDataLen := d,
            vTopicOff := 16, vTopicLen := vtl, vPayloadOff := vpo, vPayloadLen := vpl,
            hdrValid := true, frameValid := true, trunc := truncated }
          (if truncated = true then .truncatedFrame else .ok)
          [rd32 bytes 0, rd32 bytes 4, (o.zeroExtend 32 <<< 16) ||| t.zeroExtend 32, d, 16, vtl, vpo, vpl] []))

/-- MSG_TYPE (R153). -/
def Obligations.MsgTypeRule : Prop :=
  decode ⟨0x00000012, [], []⟩ = .ok .msgType ∧ IllFormedRejected 0x12 0 false false ∧
  ∀ s : State, exec .msgType s =
    .next (if s.hdrValid = false then replied s .sequenceError [] []
      else if s.hOptions &&& s.params.kindMask = 1 ∨ s.hOptions &&& s.params.kindMask = 2 then
        replied s .ok [(s.hOptions &&& s.params.kindMask).zeroExtend 32] []
      else replied s .unknownMessageKind [(s.hOptions &&& s.params.kindMask).zeroExtend 32] [])

/-- VERIFY (R156), with the check order of R157. `body` is RX[16 : 16+t+d), with t and d the header registers. Where the view
registers give those lengths, as in every state of R41 with TRUNC = 0, the verdict is on `body`, "exactly the topic view
followed by the payload view". In any other state it is on `body` or on the two views, the open choice of log 18. -/
def Obligations.VerifyRule : Prop :=
  decode ⟨0x00000014, [], []⟩ = .ok .verify ∧ IllFormedRejected 0x14 0 false false ∧
  ∀ s : State,
    if s.frameValid = false then exec .verify s = .next (replied s .sequenceError [] [])
    else if s.hMagic ≠ s.params.magic then exec .verify s = .next (replied s .invalidMagic [] [])
    else if s.trunc = true then exec .verify s = .next (replied s .truncatedFrame [] [])
    else
      let verdict := fun bs : List Byte =>
        if crc32 bs ≠ s.hChecksum then replied s .checksumMismatch [crc32 bs, s.hChecksum] [] else replied s .ok [crc32 bs] []
      ∀ body : List Byte, body.length = s.hTopicLen.toNat + s.hDataLen.toNat → 16 + body.length ≤ s.size .rx →
        Holds s .rx 16 body →
        (s.vTopicOff.toNat = 16 → s.vPayloadOff.toNat = 16 + s.vTopicLen.toNat → s.vTopicLen.toNat = s.hTopicLen.toNat →
          s.vPayloadLen.toNat = s.hDataLen.toNat → exec .verify s = .next (verdict body)) ∧
        ∀ topic payload : List Byte, topic.length = s.vTopicLen.toNat → payload.length = s.vPayloadLen.toNat →
          s.vTopicOff.toNat + topic.length ≤ s.size .rx → s.vPayloadOff.toNat + payload.length ≤ s.size .rx →
          Holds s .rx s.vTopicOff.toNat topic → Holds s .rx s.vPayloadOff.toNat payload →
          exec .verify s = .next (verdict body) ∨ exec .verify s = .next (verdict (topic ++ payload))

/-- The views of a completed parse lie in the buffer and follow each other from offset 16, the payload is cut before the
topic, and truncation is reported exactly when the declared end lies past RXLEN, with no wrap (R143, R144, R146, R147). -/
def Obligations.ParsedViewsTileTheAvailableBytes : Prop :=
  ∀ s t : State, exec .frameParse s = .next t → t.frameValid = true →
    t.vTopicOff.toNat = 16 ∧ t.vPayloadOff.toNat = t.vTopicOff.toNat + t.vTopicLen.toNat ∧
    t.vPayloadOff.toNat + t.vPayloadLen.toNat ≤ t.rxLen.toNat ∧
    (t.trunc = true ↔ t.rxLen.toNat < 16 + t.hTopicLen.toNat + t.hDataLen.toNat) ∧
    (t.trunc = false → t.vTopicLen.toNat = t.hTopicLen.toNat ∧ t.vPayloadLen.toNat = t.hDataLen.toNat) ∧
    (t.trunc = true → t.vPayloadOff.toNat + t.vPayloadLen.toNat = t.rxLen.toNat) ∧
    (t.vTopicLen.toNat < t.hTopicLen.toNat → t.vPayloadLen.toNat = 0)

/-- For every legal KIND_MASK, options 0 to 3 are unchanged by the mask, 1 is PUSH, 2 is SUBSCRIBE, 0 and 3 are unknown; any
options value is classified by its masked value alone (R151, R152). -/
def Obligations.KindsHoldForEveryLegalMask : Prop :=
  ∀ p : Params,
    (p.kindMask &&& 3 = 3) ∧ (∀ o : Half, o.toNat ≤ 3 → o &&& p.kindMask = o) ∧
    kindOf p.kindMask 1 = .ok .push ∧ kindOf p.kindMask 2 = .ok .subscribe ∧
    kindOf p.kindMask 0 = .error .unknownMessageKind ∧ kindOf p.kindMask 3 = .error .unknownMessageKind ∧
    ∀ o : Half, kindOf p.kindMask o = kindOf p.kindMask (o &&& p.kindMask)

/-- VERIFY answers OK exactly when the magic matches, the frame is complete and the checksum is right (D19, R156): in every
state of the invariant with a parsed frame. -/
def Obligations.VerifyOkIffFrameIsIntact : Prop :=
  ∀ s : State, Inv s → s.frameValid = true →
    ∃ t, exec .verify s = .next t ∧
      (answered t .ok ↔ s.hMagic = s.params.magic ∧ s.trunc = false ∧
        ∃ body, body.length = s.hTopicLen.toNat + s.hDataLen.toNat ∧ Holds s .rx 16 body ∧ crc32 body = s.hChecksum)

/-- No decoder command reads RX at an index at or above RXLEN (R158): change those bytes in any way, and each gives the same
outcome, with the same response, but for RX itself. -/
def Obligations.DecoderReadsOnlyLoadedBytes : Prop :=
  ∀ (s : State) (m : Memory) (i : Instr), DecoderInv s → (∀ a, a < s.rxLen.toNat → m.read a = s.rx.read a) →
    i.op ∈ [.hdrDecode, .frameParse, .msgType, .verify] →
    OutcomesAgree (fun t u => u = { t with rx := m }) (exec i s) (exec i { s with rx := m })

/-! ## The frame builder's commands -/

/-- BLD_RESET (R176). -/
def Obligations.BldResetRule : Prop :=
  decode ⟨0x00000020, [], []⟩ = .ok .bldReset ∧ IllFormedRejected 0x20 0 false false ∧
  ∀ s : State, exec .bldReset s = .next (replied
    { s with phase := .empty, cur := 16, bTopicLen := 0, bDataLen := 0, frameLen := 0 } .ok [] [])

/-- SET_TOPIC (R180). -/
def Obligations.SetTopicRule : Prop :=
  (∀ data, decode ⟨0x00000021, [], data⟩ = .ok (.setTopic data)) ∧ IllFormedRejected 0x21 0 true false ∧
  ∀ (s : State) (data : List Byte),
    if s.phase ≠ .empty then exec (.setTopic data) s = .next (replied s .sequenceError [] [])
    else if 0xFFFF < data.length ∨ s.params.capacity.toNat < 16 + data.length then
      exec (.setTopic data) s = .next (replied s .capacityExceeded [] [])
    else
      ∃ (m : Memory) (n : Half) (c : Word), n.toNat = data.length ∧ c.toNat = 16 + data.length ∧
        WrittenAt s.tx m 16 data ∧
        exec (.setTopic data) s = .next (replied { s with tx := m, bTopicLen := n, cur := c, phase := .topic } .ok [] [])

/-- WRITE_RAW (R182). -/
def Obligations.WriteRawRule : Prop :=
  (∀ data, decode ⟨0x00000022, [], data⟩ = .ok (.writeRaw data)) ∧ IllFormedRejected 0x22 0 true false ∧
  ∀ (s : State) (data : List Byte),
    if s.phase ≠ .topic then exec (.writeRaw data) s = .next (replied s .sequenceError [] [])
    else if s.params.capacity.toNat < s.cur.toNat + data.length then
      exec (.writeRaw data) s = .next (replied s .capacityExceeded [] [])
    else
      ∃ (m : Memory) (n c : Word), n.toNat = data.length ∧ c.toNat = s.cur.toNat + data.length ∧
        WrittenAt s.tx m s.cur.toNat data ∧
        exec (.writeRaw data) s = .next (replied { s with tx := m, bDataLen := n, cur := c, phase := .data } .ok [] [])

/-- WRITE_VIA (R186, R188). The bytes of TX[CUR : CAPACITY) that the payload does not cover are left open: nothing is said of
them (log 3). The answer is the head of the serializer's answers (log 6); with none the block is stuck (R187). -/
def Obligations.WriteViaRule : Prop :=
  (∀ v : Word, decode ⟨0x00000023, [v], []⟩ = .ok (.writeVia v)) ∧ IllFormedRejected 0x23 1 false false ∧
  ∀ (s : State) (v : Word),
    if s.phase ≠ .topic then exec (.writeVia v) s = .next (replied s .sequenceError [] [])
    else if s.params.hasSerializer = false then exec (.writeVia v) s = .next (replied s .serializerFailed [] [])
    else
      match s.serAnswers with
      | [] => exec (.writeVia v) s = .fault .serializerSilent
      | ans :: rest =>
        ∃ m : Memory, (∀ a, a < s.cur.toNat ∨ s.params.capacity.toNat ≤ a → m.read a = s.tx.read a) ∧
          let asked := { s with
            serAnswers := rest, serRequest := some ⟨v, s.params.capacity.toNat - s.cur.toNat⟩, tx := m }
          match ans with
          | .noFit => exec (.writeVia v) s = .next (replied asked .capacityExceeded [] [])
          | .unrepresentable => exec (.writeVia v) s = .next (replied asked .serializerFailed [] [])
          | .wrote bs =>
            if s.params.capacity.toNat < s.cur.toNat + bs.length then
              exec (.writeVia v) s = .next (replied asked .capacityExceeded [] [])
            else
              ∃ n c : Word, n.toNat = bs.length ∧ c.toNat = s.cur.toNat + bs.length ∧
                (∀ j, j < bs.length → m.read (s.cur.toNat + j) = bs[j]?) ∧
                exec (.writeVia v) s = .next (replied { asked with bDataLen := n, cur := c, phase := .data } .ok [n] [])

/-- FINALIZE (R190, R191). `body` is TX[16 : CUR), topic and payload. -/
def Obligations.FinalizeRule : Prop :=
  (∀ k : Byte, decode ⟨0#16 ++ k ++ 0x24#8, [], []⟩ = .ok (.finalize k)) ∧ IllFormedRejected 0x24 0 false true ∧
  ∀ (s : State) (kind : Byte),
    if s.phase ≠ .data then exec (.finalize kind) s = .next (replied s .sequenceError [] [])
    else if kind ≠ 1 ∧ kind ≠ 2 then exec (.finalize kind) s = .next (replied s .unknownMessageKind [] [])
    else
      ∀ body : List Byte, 16 + body.length = s.cur.toNat → s.cur.toNat ≤ s.size .tx → Holds s .tx 16 body →
        ∃ m : Memory,
          WrittenAt s.tx m 0 (be32 s.params.magic ++ be32 (crc32 body) ++ be16 (kind.zeroExtend 16) ++
            be16 s.bTopicLen ++ be32 s.bDataLen) ∧
          exec (.finalize kind) s =
            .next (replied { s with tx := m, frameLen := s.cur, phase := .finalized } .ok [s.cur] [])

/-- AS_FRAME (R195). It is the only command whose RDATA comes from TX: no other answers RDATA, but HDR_ENCODE, whose RDATA is
made of its operands. -/
def Obligations.AsFrameRule : Prop :=
  decode ⟨0x00000025, [], []⟩ = .ok .asFrame ∧ IllFormedRejected 0x25 0 false false ∧
  (∀ s : State,
    if s.phase ≠ .finalized then exec .asFrame s = .next (replied s .sequenceError [] [])
    else
      ∀ frame : List Byte, frame.length = s.frameLen.toNat → frame.length ≤ s.size .tx → Holds s .tx 0 frame →
        exec .asFrame s = .next (replied s .ok [s.frameLen] frame)) ∧
  ∀ (i : Instr) (s t : State) (r : Response), i ≠ .asFrame → exec i s = .next t → t.resp = some r →
    r.rdata = [] ∨ ∃ m c o l d, i = .hdrEncode m c o l d ∧ r.rdata = be32 m ++ be32 c ++ be16 o ++ be16 l ++ be32 d

/-- The phase transition table (R171): a builder command that is OK moves PHASE as its cell says, a cell SEQ answers
SEQUENCE_ERROR with no effect but ERR and only it does, and a command that is not OK leaves PHASE. -/
def Obligations.PhaseFollowsTheTransitionTable : Prop :=
  ∀ (i : Instr) (s t : State), i.op ∈ builderOps → exec i s = .next t →
    (nextPhase i.op s.phase = none ↔ answered t .sequenceError) ∧
    (nextPhase i.op s.phase = none → t = replied s .sequenceError [] []) ∧
    (answered t .ok → nextPhase i.op s.phase = some t.phase) ∧ (¬answered t .ok → t.phase = s.phase)

/-- A builder command in a phase where R171 gives SEQ is rejected before any other check and writes nothing but ERR (R172). -/
def Obligations.OutOfOrderCommandOnlySetsErr : Prop :=
  ∀ (i : Instr) (s : State), i.op ∈ builderOps → nextPhase i.op s.phase = none →
    exec i s = .next (replied s .sequenceError [] [])

/-- A payload through the serializer is the payload written directly (R188's example): the two commands answer OK in the same
states, and leave every register and every byte of RX and of TX up to the cursor alike. -/
def Obligations.SerializerPayloadEqualsRawPayload : Prop :=
  ∀ (s t : State) (v : Word) (bs : List Byte) (rest : List SerAnswer), s.params.hasSerializer = true →
    s.serAnswers = .wrote bs :: rest → exec (.writeVia v) s = .next t →
    ∃ u, exec (.writeRaw bs) s = .next u ∧ t.err = u.err ∧ (∀ r, t.reg r = u.reg r) ∧ t.rx = u.rx ∧
      ∀ a, a < u.cur.toNat → t.tx.read a = u.tx.read a

/-- Every finalized frame satisfies the source's invariant (R192): AS_FRAME answers FRAME_LEN bytes whose header has MAGIC, the
recorded lengths, a legal kind, and the CRC-32 of exactly the bytes that follow it. -/
def Obligations.FinalizedFrameIsConsistent : Prop :=
  ∀ s : State, Inv s → s.phase = .finalized →
    ∃ t frame h, exec .asFrame s = .next t ∧ t.resp = some ⟨.ok, [s.frameLen], frame⟩ ∧
      frame.length = 16 + h.topicLen.toNat + h.dataLen.toNat ∧ frame.length = s.frameLen.toNat ∧
      parseHeader frame = .ok h ∧ h.magic = s.params.magic ∧ h.topicLen = s.bTopicLen ∧ h.dataLen = s.bDataLen ∧
      (h.options = 1 ∨ h.options = 2) ∧ h.checksum = crc32 (frame.drop 16)

/-- The macro BUILD, from any state whatever the builder's phase, gives exactly the frame of its topic, payload and kind: every
byte AS_FRAME returns was written in this build (R90, R194, R196). -/
def Obligations.BuildReturnsExactlyTheFrame : Prop :=
  ∀ (s : State) (topic payload : List Byte) (kind : Byte), topic.length ≤ 0xFFFF →
    16 + topic.length + payload.length ≤ s.params.capacity.toNat → kind = 1 ∨ kind = 2 →
    ∃ t n, runMacro (.build topic payload kind) s = .next t ∧ n.toNat = 16 + topic.length + payload.length ∧
      t.resp = some ⟨.ok, [n],
        encodeHeader ⟨s.params.magic, crc32 (topic ++ payload), kind.zeroExtend 16, BitVec.ofNat 16 topic.length,
          BitVec.ofNat 32 payload.length⟩ ++ topic ++ payload⟩

/-- A frame built through WRITE_RAW and loaded unchanged: FRAME_PARSE answers OK and the views are the topic and the payload it
was built from (R150), which is what `topic()` and `payload()` read (R147), VERIFY answers OK and MSG_TYPE its kind (R193, here
for the frames built through WRITE_RAW): from every state, for every topic, payload and legal kind that fit the two buffers. -/
def Obligations.BuiltFrameParsesVerifiesAndClassifies : Prop :=
  ∀ (s : State) (topic payload : List Byte) (kind : Byte), topic.length ≤ 0xFFFF →
    16 + topic.length + payload.length ≤ s.params.capacity.toNat →
    16 + topic.length + payload.length ≤ s.params.rxcap.toNat → kind = 1 ∨ kind = 2 →
    ∃ t n frame t1 t2 t3 t4,
      execAll [.bldReset, .setTopic topic, .writeRaw payload, .finalize kind, .asFrame] s = .next t ∧
      t.resp = some ⟨.ok, [n], frame⟩ ∧
      exec (.rxLoad frame) t = .next t1 ∧ answered t1 .ok ∧
      exec .frameParse t1 = .next t2 ∧ answered t2 .ok ∧
      exec .verify t2 = .next t3 ∧ answered t3 .ok ∧
      exec .msgType t3 = .next t4 ∧ t4.resp = some ⟨.ok, [kind.zeroExtend 32], []⟩ ∧
      t4.vTopicOff.toNat = 16 ∧ t4.vTopicLen.toNat = topic.length ∧ t4.vPayloadOff.toNat = 16 + topic.length ∧
      t4.vPayloadLen.toNat = payload.length ∧ Holds t4 .rx 16 topic ∧ Holds t4 .rx (16 + topic.length) payload ∧
      t4.topicView = .ok topic ∧ t4.payloadView = .ok payload

/-! ## Status and control -/

/-- GET_STATUS (R210): ERR is not written. After reset it answers [0x00000000, 16, 0, 0]. -/
def Obligations.GetStatusRule : Prop :=
  decode ⟨0x00000030, [], []⟩ = .ok .getStatus ∧ IllFormedRejected 0x30 0 false false ∧
  (∀ s : State, exec .getStatus s = .next { s with
    resp := some { status := .ok, values := [s.statusWord, s.cur, s.rxLen, s.frameLen], rdata := [] } }) ∧
  ∀ p : Params, exec .getStatus (State.resetOf p) = .next { State.resetOf p with resp := some ⟨.ok, [0, 16, 0, 0], []⟩ }

/-- The STATUS word (R37): each field at its bits, bits 31:9 are 0, and 0 after reset; with the codes of the statuses (R85) and
of the phases (R25). -/
def Obligations.StatusWordFields : Prop :=
  (∀ s : State, s.statusWord.extractLsb' 0 4 = statusCode s.err ∧ s.statusWord.extractLsb' 4 2 = phaseCode s.phase ∧
    s.statusWord.getLsbD 6 = s.hdrValid ∧ s.statusWord.getLsbD 7 = s.frameValid ∧ s.statusWord.getLsbD 8 = s.trunc ∧
    s.statusWord.extractLsb' 9 23 = 0#23) ∧
  (∀ p : Params, (State.resetOf p).statusWord = 0) ∧
  [Status.ok, .truncatedHeader, .truncatedFrame, .invalidMagic, .checksumMismatch, .unknownMessageKind, .capacityExceeded,
    .invalidTopicEncoding, .bufferUnderrun, .bufferOverrun, .sequenceError, .serializerFailed, .illegalCommand].map statusCode
    = [0x0#4, 0x1#4, 0x2#4, 0x3#4, 0x4#4, 0x5#4, 0x6#4, 0x7#4, 0x8#4, 0x9#4, 0xA#4, 0xB#4, 0xC#4] ∧
  [Phase.empty, .topic, .data, .finalized].map phaseCode = [0#2, 1#2, 2#2, 3#2]

/-- Each command answers only the statuses the error catalogue lists for it, so builder errors and decoder errors are
distinguishable; INVALID_TOPIC_ENCODING and BUFFER_UNDERRUN are never answered (R85, R221, R222). -/
def Obligations.AnswersOnlyCataloguedStatuses : Prop :=
  ∀ (i : Instr) (s t : State), exec i s = .next t →
    ∃ st, answered t st ∧ st ∈ mayAnswer i.op ∧ st ≠ .invalidTopicEncoding ∧ st ≠ .bufferUnderrun

/-! ## Frames and rejections -/

/-- What the checksum unit's commands and GET_STATUS leave unchanged (R44, R210): everything but CRC (CRC_INIT, CRC_UPDATE),
ERR (all but GET_STATUS) and the response. -/
def Obligations.ChecksumAndStatusCommandsFrame : Prop :=
  ∀ (i : Instr) (s t : State), i.op ∈ [.crcInit, .crcUpdate, .crcFinal, .crcOneshot, .getStatus] → exec i s = .next t →
    Framed i s t

/-- What HDR_ENCODE and the decoder's commands leave unchanged (R44, R108, R140): every register the writer table does not list
for them, all of TX, and all of RX but the bytes RX[0:N) that RX_LOAD stores. -/
def Obligations.DecoderCommandsFrame : Prop :=
  ∀ (i : Instr) (s t : State), i.op ∈ .hdrEncode :: decoderOps → exec i s = .next t → Framed i s t

/-- What the builder's commands leave unchanged (R44): every register the writer table does not list for them, all of RX, and
all of TX but the stored range, computed as the command computes it; WRITE_VIA alone takes an answer of the serializer. -/
def Obligations.BuilderCommandsFrame : Prop :=
  ∀ (i : Instr) (s t : State), i.op ∈ builderOps → exec i s = .next t → Framed i s t

/-- The rejection rule (R223): a rejected command writes ERR with its status and nothing else, but for (a) the three valid
bits, which TRUNCATED_HEADER clears, (b) TX[CUR : CAPACITY) after a WRITE_VIA that asked the serializer, and (c) the values of
MSG_TYPE and VERIFY. -/
def Obligations.RejectedCommandOnlySetsErr : Prop :=
  ∀ (i : Instr) (s t : State) (st : Status) (values : List Word) (rdata : List Byte), exec i s = .next t →
    t.resp = some ⟨st, values, rdata⟩ → statusClass i.op st = .rejected →
    t.err = st ∧ rdata = [] ∧
    (∀ r, r ≠ .err → (st = .truncatedHeader → r ∉ validBits) → t.reg r = s.reg r) ∧
    (st = .truncatedHeader → t.hdrValid = false ∧ t.frameValid = false ∧ t.trunc = false) ∧
    (∀ sp a, (i.op = .writeVia → st ≠ .sequenceError → s.params.hasSerializer = true →
        outsideSpan (storeSpan s i) sp a) → t.readByte sp a = s.readByte sp a) ∧
    (values ≠ [] → (i = .msgType ∧ st = .unknownMessageKind) ∨ (i = .verify ∧ st = .checksumMismatch))

/-- Re-issuing a command whose rule writes no state other than ERR, or HDR_DECODE or FRAME_PARSE, gives the same response and
changes nothing more (R62). -/
def Obligations.ReissueChangesNothing : Prop :=
  ∀ (i : Instr) (s t : State),
    i.op ∈ [.crcFinal, .crcOneshot, .hdrEncode, .msgType, .verify, .asFrame, .getStatus, .hdrDecode, .frameParse] →
    exec i s = .next t → exec i t = .next t

/-! ## Whole-machine rules -/

/-- The decoder is independent of the builder and the checksum stream (R108, R259): its commands give, in two states that agree
on the decoder, outcomes that agree on the decoder and in the response. -/
def Obligations.DecoderIsIndependentOfTheRest : Prop :=
  ∀ (i : Instr) (s t : State), i.op ∈ decoderOps → SameDecoder s t → OutcomesAgree SameDecoder (exec i s) (exec i t)

/-- The builder is independent of the decoder and the checksum stream (R130, R259). -/
def Obligations.BuilderIsIndependentOfTheRest : Prop :=
  ∀ (i : Instr) (s t : State), i.op ∈ builderOps → SameBuilder s t → OutcomesAgree SameBuilder (exec i s) (exec i t)

/-- The invariants of R40 and R41, with the canonical form of both memories, hold after reset, for every instance. -/
def Obligations.ResetSatisfiesTheInvariant : Prop :=
  Inv State.reset ∧ ∀ p : Params, Inv (State.resetOf p)

/-- Every step keeps the invariants of R40 and R41 and the canonical form of both memories. -/
def Obligations.StepKeepsTheInvariant : Prop :=
  ∀ s t : State, Inv s → step s = .next t → Inv t

/-- The only stuck state is WRITE_VIA waiting for a serializer that never answers (R237): in every state of the invariant a
step answers a next state but in that one case, so no MemRead precondition is violated (R52, R53) and no unwritten byte is
read (R196, R253; that such a byte holds no value is the model's choice, log 2). -/
def Obligations.OnlyASilentSerializerStops : Prop :=
  ∀ s : State, Inv s →
    let waits : Prop :=
      (∃ v rest, s.inbox = .command (encode (.writeVia v)) :: rest) ∧ s.phase = .topic ∧ s.params.hasSerializer = true ∧
        s.serAnswers = []
    (waits → step s = .fault .serializerSilent) ∧ (¬waits → ∃ t, step s = .next t)

/-- The stopping rule of the macros (R90): PARSE_CHECKED of a cut frame goes on past FRAME_PARSE's TRUNCATED_FRAME and stops at
VERIFY; every other macro stops at the first status that is not OK. -/
def Obligations.MacroStopsAtTheFirstError : Prop :=
  ∀ (m : Macro) (i : Instr) (rest : List Instr) (s t : State) (r : Response), exec i s = .next t → t.resp = some r →
    let goesOn : Prop :=
      r.status = .ok ∨ ((∃ frame, m = .parseChecked frame) ∧ i = .frameParse ∧ r.status = .truncatedFrame)
    (goesOn → runMacroFrom m (i :: rest) s = runMacroFrom m rest t) ∧ (¬goesOn → runMacroFrom m (i :: rest) s = .next t)
end

