-- ==== Sys2Proof/Laws/Memory.lean ====
section
/-!
SUPPORT. The laws of a byte space's contents: a read after a write, what a write leaves alone, and that every operation
keeps the canonical form (`Memory.wf`).
-/
namespace Sys2Proof.Machine

variable (m : Memory)

/-! ## One byte -/

@[simp] theorem Memory.read_nil (a : Nat) : Memory.read [] a = none := rfl

theorem Memory.read_write (a b : Nat) (v : Byte) :
    (m.write a v).read b = if b = a then some v else m.read b := by
  induction m with
  | nil => simp only [Memory.write, Memory.read]; grind
  | cons c rest ih =>
    obtain ⟨k, w⟩ := c
    simp only [Memory.write]
    split
    · simp only [Memory.read]; grind
    · split
      · simp only [Memory.read]; grind
      · simp only [Memory.read, ih]; grind

@[simp] theorem Memory.read_write_self (a : Nat) (v : Byte) : (m.write a v).read a = some v := by
  simp [Memory.read_write]

theorem Memory.read_write_ne {a b : Nat} (v : Byte) (h : b ≠ a) : (m.write a v).read b = m.read b := by
  simp [Memory.read_write, h]

theorem Memory.mem_write {a : Nat} {v : Byte} {c : Host.Cell} (h : c ∈ m.write a v) : c = (a, v) ∨ c ∈ m := by
  induction m with
  | nil => simpa [Memory.write] using h
  | cons d rest ih =>
    obtain ⟨k, w⟩ := d
    simp only [Memory.write] at h
    split at h
    · simpa using h
    · split at h <;> grind

theorem Memory.write_wf {m : Memory} (h : m.wf) (a : Nat) (v : Byte) : (m.write a v).wf := by
  induction m with
  | nil => simp [Memory.write, Memory.wf]
  | cons d rest ih =>
    obtain ⟨k, w⟩ := d
    have hk : ∀ c ∈ rest, k < c.1 := (List.pairwise_cons.1 h).1
    have hr : Memory.wf rest := (List.pairwise_cons.1 h).2
    simp only [Memory.write]
    split
    · rename_i hlt
      exact List.pairwise_cons.2 ⟨by
        intro c hc
        rcases List.mem_cons.1 hc with rfl | hc
        · exact hlt
        · exact Nat.lt_trans hlt (hk c hc), h⟩
    · split
      · rename_i heq
        exact List.pairwise_cons.2 ⟨fun c hc => heq ▸ hk c hc, hr⟩
      · refine List.pairwise_cons.2 ⟨fun c hc => ?_, ih hr⟩
        rcases Memory.mem_write rest hc with rfl | hc
        · show k < a
          omega
        · exact hk c hc

/-! ## Byte strings -/

@[simp] theorem Memory.writeBytes_nil (a : Nat) : m.writeBytes a [] = m := rfl

@[simp] theorem Memory.readBytes_zero (a : Nat) : m.readBytes a 0 = some [] := rfl

theorem Memory.writeBytes_wf {m : Memory} (h : m.wf) (a : Nat) (bs : List Byte) : (m.writeBytes a bs).wf := by
  induction bs generalizing m a with
  | nil => exact h
  | cons b bs ih => exact ih (Memory.write_wf h a b) (a + 1)

/-- A write of a byte string leaves every byte outside its range alone. -/
theorem Memory.read_writeBytes_outside (a b : Nat) (bs : List Byte) (h : b < a ∨ a + bs.length ≤ b) :
    (m.writeBytes a bs).read b = m.read b := by
  induction bs generalizing m a with
  | nil => rfl
  | cons v bs ih =>
    simp only [List.length_cons] at h
    rw [Memory.writeBytes, ih _ _ (by omega), Memory.read_write_ne _ _ (by omega)]

/-- A write of a byte string puts its bytes at their places. -/
theorem Memory.read_writeBytes_inside (a i : Nat) (bs : List Byte) (h : i < bs.length) :
    (m.writeBytes a bs).read (a + i) = bs[i]? := by
  induction bs generalizing m a i with
  | nil => simp at h
  | cons v bs ih =>
    rw [Memory.writeBytes]
    cases i with
    | zero => simp [Memory.read_writeBytes_outside _ (a + 1) a bs (by omega)]
    | succ i =>
      have := ih (m.write a v) (a + 1) i (by simpa using h)
      rw [show a + (i + 1) = a + 1 + i by omega, this]
      simp

theorem Memory.mem_writeBytes {a : Nat} {bs : List Byte} {c : Host.Cell} (h : c ∈ m.writeBytes a bs) :
    c ∈ m ∨ (a ≤ c.1 ∧ c.1 < a + bs.length) := by
  induction bs generalizing m a with
  | nil => exact .inl h
  | cons v bs ih =>
    rcases ih _ h with h | h
    · rcases Memory.mem_write m h with rfl | h
      · exact .inr (by simp)
      · exact .inl h
    · exact .inr (by simp only [List.length_cons]; omega)

/-- A read of a range depends only on the bytes of that range. -/
theorem Memory.readBytes_congr {m m' : Memory} (a n : Nat) (h : ∀ b, a ≤ b → b < a + n → m'.read b = m.read b) :
    m'.readBytes a n = m.readBytes a n := by
  induction n generalizing a with
  | zero => rfl
  | succ n ih =>
    simp only [Memory.readBytes]
    rw [h a (by omega) (by omega), ih (a + 1) fun b h1 h2 => h b (by omega) (by omega)]

theorem Memory.readBytes_length {a n : Nat} {bs : List Byte} (h : m.readBytes a n = some bs) : bs.length = n := by
  induction n generalizing a bs with
  | zero => simp_all [Memory.readBytes]
  | succ n ih =>
    simp only [Memory.readBytes] at h
    split at h
    · rename_i hb
      cases h
      simpa using ih hb
    · cases h

/-- Two reads side by side are one read. -/
theorem Memory.readBytes_append {a n k : Nat} {xs ys : List Byte} (hx : m.readBytes a n = some xs)
    (hy : m.readBytes (a + n) k = some ys) : m.readBytes a (n + k) = some (xs ++ ys) := by
  induction n generalizing a xs with
  | zero => simp_all [Memory.readBytes]
  | succ n ih =>
    simp only [Memory.readBytes] at hx
    split at hx
    · rename_i b bs hb hbs
      cases hx
      have := ih hbs (by rwa [show a + 1 + n = a + (n + 1) by omega])
      rw [show n + 1 + k = n + k + 1 by omega]
      simp [Memory.readBytes, hb, this]
    · cases hx

/-- A read of what was just written gives what was written. -/
theorem Memory.readBytes_writeBytes (a : Nat) (bs : List Byte) :
    (m.writeBytes a bs).readBytes a bs.length = some bs := by
  induction bs generalizing m a with
  | nil => rfl
  | cons v bs ih =>
    simp only [List.length_cons, Memory.readBytes, Memory.writeBytes]
    rw [ih, Memory.read_writeBytes_outside _ _ _ _ (by omega)]
    simp

/-- A read succeeds exactly when every byte of its range holds a value. -/
theorem Memory.readBytes_isSome (a n : Nat) :
    (m.readBytes a n).isSome = true ↔ ∀ b, a ≤ b → b < a + n → (m.read b).isSome = true := by
  induction n generalizing a with
  | zero => simp [Memory.readBytes]; omega
  | succ n ih =>
    simp only [Memory.readBytes]
    constructor
    · intro h b h1 h2
      split at h
      · rename_i hb hbs
        by_cases hab : b = a
        · simp [hab, hb]
        · exact (ih (a + 1)).1 (by simp [hbs]) b (by omega) (by omega)
      · cases h
    · intro h
      obtain ⟨v, hv⟩ := Option.isSome_iff_exists.1 (h a (by omega) (by omega))
      obtain ⟨vs, hvs⟩ := Option.isSome_iff_exists.1 ((ih (a + 1)).2 fun b h1 h2 => h b (by omega) (by omega))
      simp [hv, hvs]

/-- The bytes a read returns are those at their offsets. -/
theorem Memory.readBytes_getElem {a n : Nat} {bs : List Byte} (h : m.readBytes a n = some bs) {i : Nat} (hi : i < n) :
    bs[i]? = m.read (a + i) := by
  induction n generalizing a bs i with
  | zero => omega
  | succ n ih =>
    simp only [Memory.readBytes] at h
    split at h
    · rename_i b cs hb hcs
      cases h
      cases i with
      | zero => simp [hb]
      | succ i =>
        rw [List.getElem?_cons_succ, ih hcs (by omega), show a + 1 + i = a + (i + 1) by omega]
    · cases h

/-! ## Forgetting a range -/

theorem Memory.forget_wf {m : Memory} (h : m.wf) (lo hi : Nat) : (m.forget lo hi).wf := List.Pairwise.filter _ h

theorem Memory.mem_forget {lo hi : Nat} {c : Host.Cell} (h : c ∈ m.forget lo hi) : c ∈ m := (List.mem_filter.1 h).1

theorem Memory.read_forget (lo hi a : Nat) :
    (m.forget lo hi).read a = if lo ≤ a ∧ a < hi then none else m.read a := by
  induction m with
  | nil => simp [Memory.forget, Memory.read]
  | cons c rest ih =>
    obtain ⟨k, v⟩ := c
    simp only [Memory.forget] at ih
    simp only [Memory.forget, List.filter_cons]
    split
    · rename_i hk
      simp only [decide_eq_true_eq] at hk
      simp only [Memory.read, ih]
      grind
    · rename_i hk
      simp only [decide_eq_true_eq] at hk
      rw [ih]
      simp only [Memory.read]
      grind

theorem Memory.read_forget_outside {lo hi a : Nat} (h : a < lo ∨ hi ≤ a) : (m.forget lo hi).read a = m.read a := by
  rw [Memory.read_forget, if_neg (by omega)]

/-! ## Reset -/

/-- Right after reset both memories are canonical (R38, R39), for every instance. -/
theorem State.resetOf_mem_wf (p : Params) (sp : Space) : ((State.resetOf p).mem sp).wf := by
  cases sp <;> exact List.Pairwise.nil

theorem State.reset_mem_wf (sp : Space) : (State.reset.mem sp).wf := State.resetOf_mem_wf Config.params sp

end Sys2Proof.Machine
end

