-- ==== Sys2Proof/Laws/State.lean ====
section
/-!
SUPPORT. One lemma per field per update of the state: what each named update of Machine/ leaves in each field.
-/
namespace Sys2Proof.Machine

variable (s : State)

/-! ## s.answer st vs bs -/

@[simp] theorem State.answer_params (st : Status) (vs : List Word) (bs : List Byte) :
    (s.answer st vs bs).params = s.params := rfl
@[simp] theorem State.answer_crc (st : Status) (vs : List Word) (bs : List Byte) :
    (s.answer st vs bs).crc = s.crc := rfl
@[simp] theorem State.answer_phase (st : Status) (vs : List Word) (bs : List Byte) :
    (s.answer st vs bs).phase = s.phase := rfl
@[simp] theorem State.answer_cur (st : Status) (vs : List Word) (bs : List Byte) :
    (s.answer st vs bs).cur = s.cur := rfl
@[simp] theorem State.answer_bTopicLen (st : Status) (vs : List Word) (bs : List Byte) :
    (s.answer st vs bs).bTopicLen = s.bTopicLen := rfl
@[simp] theorem State.answer_bDataLen (st : Status) (vs : List Word) (bs : List Byte) :
    (s.answer st vs bs).bDataLen = s.bDataLen := rfl
@[simp] theorem State.answer_frameLen (st : Status) (vs : List Word) (bs : List Byte) :
    (s.answer st vs bs).frameLen = s.frameLen := rfl
@[simp] theorem State.answer_rxLen (st : Status) (vs : List Word) (bs : List Byte) :
    (s.answer st vs bs).rxLen = s.rxLen := rfl
@[simp] theorem State.answer_hdrValid (st : Status) (vs : List Word) (bs : List Byte) :
    (s.answer st vs bs).hdrValid = s.hdrValid := rfl
@[simp] theorem State.answer_frameValid (st : Status) (vs : List Word) (bs : List Byte) :
    (s.answer st vs bs).frameValid = s.frameValid := rfl
@[simp] theorem State.answer_trunc (st : Status) (vs : List Word) (bs : List Byte) :
    (s.answer st vs bs).trunc = s.trunc := rfl
@[simp] theorem State.answer_hMagic (st : Status) (vs : List Word) (bs : List Byte) :
    (s.answer st vs bs).hMagic = s.hMagic := rfl
@[simp] theorem State.answer_hChecksum (st : Status) (vs : List Word) (bs : List Byte) :
    (s.answer st vs bs).hChecksum = s.hChecksum := rfl
@[simp] theorem State.answer_hOptions (st : Status) (vs : List Word) (bs : List Byte) :
    (s.answer st vs bs).hOptions = s.hOptions := rfl
@[simp] theorem State.answer_hTopicLen (st : Status) (vs : List Word) (bs : List Byte) :
    (s.answer st vs bs).hTopicLen = s.hTopicLen := rfl
@[simp] theorem State.answer_hDataLen (st : Status) (vs : List Word) (bs : List Byte) :
    (s.answer st vs bs).hDataLen = s.hDataLen := rfl
@[simp] theorem State.answer_vTopicOff (st : Status) (vs : List Word) (bs : List Byte) :
    (s.answer st vs bs).vTopicOff = s.vTopicOff := rfl
@[simp] theorem State.answer_vTopicLen (st : Status) (vs : List Word) (bs : List Byte) :
    (s.answer st vs bs).vTopicLen = s.vTopicLen := rfl
@[simp] theorem State.answer_vPayloadOff (st : Status) (vs : List Word) (bs : List Byte) :
    (s.answer st vs bs).vPayloadOff = s.vPayloadOff := rfl
@[simp] theorem State.answer_vPayloadLen (st : Status) (vs : List Word) (bs : List Byte) :
    (s.answer st vs bs).vPayloadLen = s.vPayloadLen := rfl
@[simp] theorem State.answer_err (st : Status) (vs : List Word) (bs : List Byte) :
    (s.answer st vs bs).err = s.err := rfl
@[simp] theorem State.answer_tx (st : Status) (vs : List Word) (bs : List Byte) : (s.answer st vs bs).tx = s.tx := rfl
@[simp] theorem State.answer_rx (st : Status) (vs : List Word) (bs : List Byte) : (s.answer st vs bs).rx = s.rx := rfl
@[simp] theorem State.answer_inbox (st : Status) (vs : List Word) (bs : List Byte) :
    (s.answer st vs bs).inbox = s.inbox := rfl
@[simp] theorem State.answer_serAnswers (st : Status) (vs : List Word) (bs : List Byte) :
    (s.answer st vs bs).serAnswers = s.serAnswers := rfl
@[simp] theorem State.answer_serRequest (st : Status) (vs : List Word) (bs : List Byte) :
    (s.answer st vs bs).serRequest = s.serRequest := rfl
@[simp] theorem State.answer_resp (st : Status) (vs : List Word) (bs : List Byte) :
    (s.answer st vs bs).resp = some ⟨st, vs, bs⟩ := rfl
@[simp] theorem State.answer_size (st : Status) (vs : List Word) (bs : List Byte) (sp : Space) : (s.answer st vs bs).size sp = s.size sp := by
  cases sp <;> rfl

/-! ## s.respond st vs bs -/

@[simp] theorem State.respond_params (st : Status) (vs : List Word) (bs : List Byte) :
    (s.respond st vs bs).params = s.params := rfl
@[simp] theorem State.respond_crc (st : Status) (vs : List Word) (bs : List Byte) :
    (s.respond st vs bs).crc = s.crc := rfl
@[simp] theorem State.respond_phase (st : Status) (vs : List Word) (bs : List Byte) :
    (s.respond st vs bs).phase = s.phase := rfl
@[simp] theorem State.respond_cur (st : Status) (vs : List Word) (bs : List Byte) :
    (s.respond st vs bs).cur = s.cur := rfl
@[simp] theorem State.respond_bTopicLen (st : Status) (vs : List Word) (bs : List Byte) :
    (s.respond st vs bs).bTopicLen = s.bTopicLen := rfl
@[simp] theorem State.respond_bDataLen (st : Status) (vs : List Word) (bs : List Byte) :
    (s.respond st vs bs).bDataLen = s.bDataLen := rfl
@[simp] theorem State.respond_frameLen (st : Status) (vs : List Word) (bs : List Byte) :
    (s.respond st vs bs).frameLen = s.frameLen := rfl
@[simp] theorem State.respond_rxLen (st : Status) (vs : List Word) (bs : List Byte) :
    (s.respond st vs bs).rxLen = s.rxLen := rfl
@[simp] theorem State.respond_hdrValid (st : Status) (vs : List Word) (bs : List Byte) :
    (s.respond st vs bs).hdrValid = s.hdrValid := rfl
@[simp] theorem State.respond_frameValid (st : Status) (vs : List Word) (bs : List Byte) :
    (s.respond st vs bs).frameValid = s.frameValid := rfl
@[simp] theorem State.respond_trunc (st : Status) (vs : List Word) (bs : List Byte) :
    (s.respond st vs bs).trunc = s.trunc := rfl
@[simp] theorem State.respond_hMagic (st : Status) (vs : List Word) (bs : List Byte) :
    (s.respond st vs bs).hMagic = s.hMagic := rfl
@[simp] theorem State.respond_hChecksum (st : Status) (vs : List Word) (bs : List Byte) :
    (s.respond st vs bs).hChecksum = s.hChecksum := rfl
@[simp] theorem State.respond_hOptions (st : Status) (vs : List Word) (bs : List Byte) :
    (s.respond st vs bs).hOptions = s.hOptions := rfl
@[simp] theorem State.respond_hTopicLen (st : Status) (vs : List Word) (bs : List Byte) :
    (s.respond st vs bs).hTopicLen = s.hTopicLen := rfl
@[simp] theorem State.respond_hDataLen (st : Status) (vs : List Word) (bs : List Byte) :
    (s.respond st vs bs).hDataLen = s.hDataLen := rfl
@[simp] theorem State.respond_vTopicOff (st : Status) (vs : List Word) (bs : List Byte) :
    (s.respond st vs bs).vTopicOff = s.vTopicOff := rfl
@[simp] theorem State.respond_vTopicLen (st : Status) (vs : List Word) (bs : List Byte) :
    (s.respond st vs bs).vTopicLen = s.vTopicLen := rfl
@[simp] theorem State.respond_vPayloadOff (st : Status) (vs : List Word) (bs : List Byte) :
    (s.respond st vs bs).vPayloadOff = s.vPayloadOff := rfl
@[simp] theorem State.respond_vPayloadLen (st : Status) (vs : List Word) (bs : List Byte) :
    (s.respond st vs bs).vPayloadLen = s.vPayloadLen := rfl
@[simp] theorem State.respond_err (st : Status) (vs : List Word) (bs : List Byte) :
    (s.respond st vs bs).err = st := rfl
@[simp] theorem State.respond_tx (st : Status) (vs : List Word) (bs : List Byte) :
    (s.respond st vs bs).tx = s.tx := rfl
@[simp] theorem State.respond_rx (st : Status) (vs : List Word) (bs : List Byte) :
    (s.respond st vs bs).rx = s.rx := rfl
@[simp] theorem State.respond_inbox (st : Status) (vs : List Word) (bs : List Byte) :
    (s.respond st vs bs).inbox = s.inbox := rfl
@[simp] theorem State.respond_serAnswers (st : Status) (vs : List Word) (bs : List Byte) :
    (s.respond st vs bs).serAnswers = s.serAnswers := rfl
@[simp] theorem State.respond_serRequest (st : Status) (vs : List Word) (bs : List Byte) :
    (s.respond st vs bs).serRequest = s.serRequest := rfl
@[simp] theorem State.respond_resp (st : Status) (vs : List Word) (bs : List Byte) :
    (s.respond st vs bs).resp = some ⟨st, vs, bs⟩ := rfl
@[simp] theorem State.respond_size (st : Status) (vs : List Word) (bs : List Byte) (sp : Space) : (s.respond st vs bs).size sp = s.size sp := by
  cases sp <;> rfl

/-! ## s.reject st -/

@[simp] theorem State.reject_params (st : Status) : (s.reject st).params = s.params := rfl
@[simp] theorem State.reject_crc (st : Status) : (s.reject st).crc = s.crc := rfl
@[simp] theorem State.reject_phase (st : Status) : (s.reject st).phase = s.phase := rfl
@[simp] theorem State.reject_cur (st : Status) : (s.reject st).cur = s.cur := rfl
@[simp] theorem State.reject_bTopicLen (st : Status) : (s.reject st).bTopicLen = s.bTopicLen := rfl
@[simp] theorem State.reject_bDataLen (st : Status) : (s.reject st).bDataLen = s.bDataLen := rfl
@[simp] theorem State.reject_frameLen (st : Status) : (s.reject st).frameLen = s.frameLen := rfl
@[simp] theorem State.reject_rxLen (st : Status) : (s.reject st).rxLen = s.rxLen := rfl
@[simp] theorem State.reject_hdrValid (st : Status) : (s.reject st).hdrValid = s.hdrValid := rfl
@[simp] theorem State.reject_frameValid (st : Status) : (s.reject st).frameValid = s.frameValid := rfl
@[simp] theorem State.reject_trunc (st : Status) : (s.reject st).trunc = s.trunc := rfl
@[simp] theorem State.reject_hMagic (st : Status) : (s.reject st).hMagic = s.hMagic := rfl
@[simp] theorem State.reject_hChecksum (st : Status) : (s.reject st).hChecksum = s.hChecksum := rfl
@[simp] theorem State.reject_hOptions (st : Status) : (s.reject st).hOptions = s.hOptions := rfl
@[simp] theorem State.reject_hTopicLen (st : Status) : (s.reject st).hTopicLen = s.hTopicLen := rfl
@[simp] theorem State.reject_hDataLen (st : Status) : (s.reject st).hDataLen = s.hDataLen := rfl
@[simp] theorem State.reject_vTopicOff (st : Status) : (s.reject st).vTopicOff = s.vTopicOff := rfl
@[simp] theorem State.reject_vTopicLen (st : Status) : (s.reject st).vTopicLen = s.vTopicLen := rfl
@[simp] theorem State.reject_vPayloadOff (st : Status) : (s.reject st).vPayloadOff = s.vPayloadOff := rfl
@[simp] theorem State.reject_vPayloadLen (st : Status) : (s.reject st).vPayloadLen = s.vPayloadLen := rfl
@[simp] theorem State.reject_err (st : Status) : (s.reject st).err = st := rfl
@[simp] theorem State.reject_tx (st : Status) : (s.reject st).tx = s.tx := rfl
@[simp] theorem State.reject_rx (st : Status) : (s.reject st).rx = s.rx := rfl
@[simp] theorem State.reject_inbox (st : Status) : (s.reject st).inbox = s.inbox := rfl
@[simp] theorem State.reject_serAnswers (st : Status) : (s.reject st).serAnswers = s.serAnswers := rfl
@[simp] theorem State.reject_serRequest (st : Status) : (s.reject st).serRequest = s.serRequest := rfl
@[simp] theorem State.reject_resp (st : Status) : (s.reject st).resp = some ⟨st, [], []⟩ := rfl
@[simp] theorem State.reject_size (st : Status) (sp : Space) : (s.reject st).size sp = s.size sp := by
  cases sp <;> rfl

/-! ## s.rejectIllFormed -/

@[simp] theorem State.rejectIllFormed_params : (s.rejectIllFormed).params = s.params := rfl
@[simp] theorem State.rejectIllFormed_crc : (s.rejectIllFormed).crc = s.crc := rfl
@[simp] theorem State.rejectIllFormed_phase : (s.rejectIllFormed).phase = s.phase := rfl
@[simp] theorem State.rejectIllFormed_cur : (s.rejectIllFormed).cur = s.cur := rfl
@[simp] theorem State.rejectIllFormed_bTopicLen : (s.rejectIllFormed).bTopicLen = s.bTopicLen := rfl
@[simp] theorem State.rejectIllFormed_bDataLen : (s.rejectIllFormed).bDataLen = s.bDataLen := rfl
@[simp] theorem State.rejectIllFormed_frameLen : (s.rejectIllFormed).frameLen = s.frameLen := rfl
@[simp] theorem State.rejectIllFormed_rxLen : (s.rejectIllFormed).rxLen = s.rxLen := rfl
@[simp] theorem State.rejectIllFormed_hdrValid : (s.rejectIllFormed).hdrValid = s.hdrValid := rfl
@[simp] theorem State.rejectIllFormed_frameValid : (s.rejectIllFormed).frameValid = s.frameValid := rfl
@[simp] theorem State.rejectIllFormed_trunc : (s.rejectIllFormed).trunc = s.trunc := rfl
@[simp] theorem State.rejectIllFormed_hMagic : (s.rejectIllFormed).hMagic = s.hMagic := rfl
@[simp] theorem State.rejectIllFormed_hChecksum : (s.rejectIllFormed).hChecksum = s.hChecksum := rfl
@[simp] theorem State.rejectIllFormed_hOptions : (s.rejectIllFormed).hOptions = s.hOptions := rfl
@[simp] theorem State.rejectIllFormed_hTopicLen : (s.rejectIllFormed).hTopicLen = s.hTopicLen := rfl
@[simp] theorem State.rejectIllFormed_hDataLen : (s.rejectIllFormed).hDataLen = s.hDataLen := rfl
@[simp] theorem State.rejectIllFormed_vTopicOff : (s.rejectIllFormed).vTopicOff = s.vTopicOff := rfl
@[simp] theorem State.rejectIllFormed_vTopicLen : (s.rejectIllFormed).vTopicLen = s.vTopicLen := rfl
@[simp] theorem State.rejectIllFormed_vPayloadOff : (s.rejectIllFormed).vPayloadOff = s.vPayloadOff := rfl
@[simp] theorem State.rejectIllFormed_vPayloadLen : (s.rejectIllFormed).vPayloadLen = s.vPayloadLen := rfl
@[simp] theorem State.rejectIllFormed_err : (s.rejectIllFormed).err = .illegalCommand := rfl
@[simp] theorem State.rejectIllFormed_tx : (s.rejectIllFormed).tx = s.tx := rfl
@[simp] theorem State.rejectIllFormed_rx : (s.rejectIllFormed).rx = s.rx := rfl
@[simp] theorem State.rejectIllFormed_inbox : (s.rejectIllFormed).inbox = s.inbox := rfl
@[simp] theorem State.rejectIllFormed_serAnswers : (s.rejectIllFormed).serAnswers = s.serAnswers := rfl
@[simp] theorem State.rejectIllFormed_serRequest : (s.rejectIllFormed).serRequest = s.serRequest := rfl
@[simp] theorem State.rejectIllFormed_resp : (s.rejectIllFormed).resp = some ⟨.illegalCommand, [], []⟩ := rfl
@[simp] theorem State.rejectIllFormed_size (sp : Space) : (s.rejectIllFormed).size sp = s.size sp := by
  cases sp <;> rfl

/-! ## s.clearFrameValid -/

@[simp] theorem State.clearFrameValid_params : (s.clearFrameValid).params = s.params := rfl
@[simp] theorem State.clearFrameValid_crc : (s.clearFrameValid).crc = s.crc := rfl
@[simp] theorem State.clearFrameValid_phase : (s.clearFrameValid).phase = s.phase := rfl
@[simp] theorem State.clearFrameValid_cur : (s.clearFrameValid).cur = s.cur := rfl
@[simp] theorem State.clearFrameValid_bTopicLen : (s.clearFrameValid).bTopicLen = s.bTopicLen := rfl
@[simp] theorem State.clearFrameValid_bDataLen : (s.clearFrameValid).bDataLen = s.bDataLen := rfl
@[simp] theorem State.clearFrameValid_frameLen : (s.clearFrameValid).frameLen = s.frameLen := rfl
@[simp] theorem State.clearFrameValid_rxLen : (s.clearFrameValid).rxLen = s.rxLen := rfl
@[simp] theorem State.clearFrameValid_hdrValid : (s.clearFrameValid).hdrValid = s.hdrValid := rfl
@[simp] theorem State.clearFrameValid_frameValid : (s.clearFrameValid).frameValid = false := rfl
@[simp] theorem State.clearFrameValid_trunc : (s.clearFrameValid).trunc = false := rfl
@[simp] theorem State.clearFrameValid_hMagic : (s.clearFrameValid).hMagic = s.hMagic := rfl
@[simp] theorem State.clearFrameValid_hChecksum : (s.clearFrameValid).hChecksum = s.hChecksum := rfl
@[simp] theorem State.clearFrameValid_hOptions : (s.clearFrameValid).hOptions = s.hOptions := rfl
@[simp] theorem State.clearFrameValid_hTopicLen : (s.clearFrameValid).hTopicLen = s.hTopicLen := rfl
@[simp] theorem State.clearFrameValid_hDataLen : (s.clearFrameValid).hDataLen = s.hDataLen := rfl
@[simp] theorem State.clearFrameValid_vTopicOff : (s.clearFrameValid).vTopicOff = s.vTopicOff := rfl
@[simp] theorem State.clearFrameValid_vTopicLen : (s.clearFrameValid).vTopicLen = s.vTopicLen := rfl
@[simp] theorem State.clearFrameValid_vPayloadOff : (s.clearFrameValid).vPayloadOff = s.vPayloadOff := rfl
@[simp] theorem State.clearFrameValid_vPayloadLen : (s.clearFrameValid).vPayloadLen = s.vPayloadLen := rfl
@[simp] theorem State.clearFrameValid_err : (s.clearFrameValid).err = s.err := rfl
@[simp] theorem State.clearFrameValid_tx : (s.clearFrameValid).tx = s.tx := rfl
@[simp] theorem State.clearFrameValid_rx : (s.clearFrameValid).rx = s.rx := rfl
@[simp] theorem State.clearFrameValid_inbox : (s.clearFrameValid).inbox = s.inbox := rfl
@[simp] theorem State.clearFrameValid_serAnswers : (s.clearFrameValid).serAnswers = s.serAnswers := rfl
@[simp] theorem State.clearFrameValid_serRequest : (s.clearFrameValid).serRequest = s.serRequest := rfl
@[simp] theorem State.clearFrameValid_resp : (s.clearFrameValid).resp = s.resp := rfl
@[simp] theorem State.clearFrameValid_size (sp : Space) : (s.clearFrameValid).size sp = s.size sp := by
  cases sp <;> rfl

/-! ## s.clearValid -/

@[simp] theorem State.clearValid_params : (s.clearValid).params = s.params := rfl
@[simp] theorem State.clearValid_crc : (s.clearValid).crc = s.crc := rfl
@[simp] theorem State.clearValid_phase : (s.clearValid).phase = s.phase := rfl
@[simp] theorem State.clearValid_cur : (s.clearValid).cur = s.cur := rfl
@[simp] theorem State.clearValid_bTopicLen : (s.clearValid).bTopicLen = s.bTopicLen := rfl
@[simp] theorem State.clearValid_bDataLen : (s.clearValid).bDataLen = s.bDataLen := rfl
@[simp] theorem State.clearValid_frameLen : (s.clearValid).frameLen = s.frameLen := rfl
@[simp] theorem State.clearValid_rxLen : (s.clearValid).rxLen = s.rxLen := rfl
@[simp] theorem State.clearValid_hdrValid : (s.clearValid).hdrValid = false := rfl
@[simp] theorem State.clearValid_frameValid : (s.clearValid).frameValid = false := rfl
@[simp] theorem State.clearValid_trunc : (s.clearValid).trunc = false := rfl
@[simp] theorem State.clearValid_hMagic : (s.clearValid).hMagic = s.hMagic := rfl
@[simp] theorem State.clearValid_hChecksum : (s.clearValid).hChecksum = s.hChecksum := rfl
@[simp] theorem State.clearValid_hOptions : (s.clearValid).hOptions = s.hOptions := rfl
@[simp] theorem State.clearValid_hTopicLen : (s.clearValid).hTopicLen = s.hTopicLen := rfl
@[simp] theorem State.clearValid_hDataLen : (s.clearValid).hDataLen = s.hDataLen := rfl
@[simp] theorem State.clearValid_vTopicOff : (s.clearValid).vTopicOff = s.vTopicOff := rfl
@[simp] theorem State.clearValid_vTopicLen : (s.clearValid).vTopicLen = s.vTopicLen := rfl
@[simp] theorem State.clearValid_vPayloadOff : (s.clearValid).vPayloadOff = s.vPayloadOff := rfl
@[simp] theorem State.clearValid_vPayloadLen : (s.clearValid).vPayloadLen = s.vPayloadLen := rfl
@[simp] theorem State.clearValid_err : (s.clearValid).err = s.err := rfl
@[simp] theorem State.clearValid_tx : (s.clearValid).tx = s.tx := rfl
@[simp] theorem State.clearValid_rx : (s.clearValid).rx = s.rx := rfl
@[simp] theorem State.clearValid_inbox : (s.clearValid).inbox = s.inbox := rfl
@[simp] theorem State.clearValid_serAnswers : (s.clearValid).serAnswers = s.serAnswers := rfl
@[simp] theorem State.clearValid_serRequest : (s.clearValid).serRequest = s.serRequest := rfl
@[simp] theorem State.clearValid_resp : (s.clearValid).resp = s.resp := rfl
@[simp] theorem State.clearValid_size (sp : Space) : (s.clearValid).size sp = s.size sp := by
  cases sp <;> rfl

/-! ## s.setHeader h -/

@[simp] theorem State.setHeader_params (h : Header) : (s.setHeader h).params = s.params := rfl
@[simp] theorem State.setHeader_crc (h : Header) : (s.setHeader h).crc = s.crc := rfl
@[simp] theorem State.setHeader_phase (h : Header) : (s.setHeader h).phase = s.phase := rfl
@[simp] theorem State.setHeader_cur (h : Header) : (s.setHeader h).cur = s.cur := rfl
@[simp] theorem State.setHeader_bTopicLen (h : Header) : (s.setHeader h).bTopicLen = s.bTopicLen := rfl
@[simp] theorem State.setHeader_bDataLen (h : Header) : (s.setHeader h).bDataLen = s.bDataLen := rfl
@[simp] theorem State.setHeader_frameLen (h : Header) : (s.setHeader h).frameLen = s.frameLen := rfl
@[simp] theorem State.setHeader_rxLen (h : Header) : (s.setHeader h).rxLen = s.rxLen := rfl
@[simp] theorem State.setHeader_hdrValid (h : Header) : (s.setHeader h).hdrValid = s.hdrValid := rfl
@[simp] theorem State.setHeader_frameValid (h : Header) : (s.setHeader h).frameValid = s.frameValid := rfl
@[simp] theorem State.setHeader_trunc (h : Header) : (s.setHeader h).trunc = s.trunc := rfl
@[simp] theorem State.setHeader_hMagic (h : Header) : (s.setHeader h).hMagic = h.magic := rfl
@[simp] theorem State.setHeader_hChecksum (h : Header) : (s.setHeader h).hChecksum = h.checksum := rfl
@[simp] theorem State.setHeader_hOptions (h : Header) : (s.setHeader h).hOptions = h.options := rfl
@[simp] theorem State.setHeader_hTopicLen (h : Header) : (s.setHeader h).hTopicLen = h.topicLen := rfl
@[simp] theorem State.setHeader_hDataLen (h : Header) : (s.setHeader h).hDataLen = h.dataLen := rfl
@[simp] theorem State.setHeader_vTopicOff (h : Header) : (s.setHeader h).vTopicOff = s.vTopicOff := rfl
@[simp] theorem State.setHeader_vTopicLen (h : Header) : (s.setHeader h).vTopicLen = s.vTopicLen := rfl
@[simp] theorem State.setHeader_vPayloadOff (h : Header) : (s.setHeader h).vPayloadOff = s.vPayloadOff := rfl
@[simp] theorem State.setHeader_vPayloadLen (h : Header) : (s.setHeader h).vPayloadLen = s.vPayloadLen := rfl
@[simp] theorem State.setHeader_err (h : Header) : (s.setHeader h).err = s.err := rfl
@[simp] theorem State.setHeader_tx (h : Header) : (s.setHeader h).tx = s.tx := rfl
@[simp] theorem State.setHeader_rx (h : Header) : (s.setHeader h).rx = s.rx := rfl
@[simp] theorem State.setHeader_inbox (h : Header) : (s.setHeader h).inbox = s.inbox := rfl
@[simp] theorem State.setHeader_serAnswers (h : Header) : (s.setHeader h).serAnswers = s.serAnswers := rfl
@[simp] theorem State.setHeader_serRequest (h : Header) : (s.setHeader h).serRequest = s.serRequest := rfl
@[simp] theorem State.setHeader_resp (h : Header) : (s.setHeader h).resp = s.resp := rfl
@[simp] theorem State.setHeader_size (h : Header) (sp : Space) : (s.setHeader h).size sp = s.size sp := by
  cases sp <;> rfl

/-! ## s.setViews h -/

@[simp] theorem State.setViews_params (h : Header) : (s.setViews h).params = s.params := rfl
@[simp] theorem State.setViews_crc (h : Header) : (s.setViews h).crc = s.crc := rfl
@[simp] theorem State.setViews_phase (h : Header) : (s.setViews h).phase = s.phase := rfl
@[simp] theorem State.setViews_cur (h : Header) : (s.setViews h).cur = s.cur := rfl
@[simp] theorem State.setViews_bTopicLen (h : Header) : (s.setViews h).bTopicLen = s.bTopicLen := rfl
@[simp] theorem State.setViews_bDataLen (h : Header) : (s.setViews h).bDataLen = s.bDataLen := rfl
@[simp] theorem State.setViews_frameLen (h : Header) : (s.setViews h).frameLen = s.frameLen := rfl
@[simp] theorem State.setViews_rxLen (h : Header) : (s.setViews h).rxLen = s.rxLen := rfl
@[simp] theorem State.setViews_hdrValid (h : Header) : (s.setViews h).hdrValid = s.hdrValid := rfl
@[simp] theorem State.setViews_frameValid (h : Header) : (s.setViews h).frameValid = s.frameValid := rfl
@[simp] theorem State.setViews_trunc (h : Header) : (s.setViews h).trunc = s.trunc := rfl
@[simp] theorem State.setViews_hMagic (h : Header) : (s.setViews h).hMagic = s.hMagic := rfl
@[simp] theorem State.setViews_hChecksum (h : Header) : (s.setViews h).hChecksum = s.hChecksum := rfl
@[simp] theorem State.setViews_hOptions (h : Header) : (s.setViews h).hOptions = s.hOptions := rfl
@[simp] theorem State.setViews_hTopicLen (h : Header) : (s.setViews h).hTopicLen = s.hTopicLen := rfl
@[simp] theorem State.setViews_hDataLen (h : Header) : (s.setViews h).hDataLen = s.hDataLen := rfl
@[simp] theorem State.setViews_vTopicOff (h : Header) : (s.setViews h).vTopicOff = BitVec.ofNat 32 headerBytes := rfl
@[simp] theorem State.setViews_vTopicLen (h : Header) :
    (s.setViews h).vTopicLen = BitVec.ofNat 32 (topicEnd h s.rxLen.toNat - headerBytes) := rfl
@[simp] theorem State.setViews_vPayloadOff (h : Header) :
    (s.setViews h).vPayloadOff = BitVec.ofNat 32 (topicEnd h s.rxLen.toNat) := rfl
@[simp] theorem State.setViews_vPayloadLen (h : Header) :
    (s.setViews h).vPayloadLen = BitVec.ofNat 32 (clampedEnd h s.rxLen.toNat - topicEnd h s.rxLen.toNat) := rfl
@[simp] theorem State.setViews_err (h : Header) : (s.setViews h).err = s.err := rfl
@[simp] theorem State.setViews_tx (h : Header) : (s.setViews h).tx = s.tx := rfl
@[simp] theorem State.setViews_rx (h : Header) : (s.setViews h).rx = s.rx := rfl
@[simp] theorem State.setViews_inbox (h : Header) : (s.setViews h).inbox = s.inbox := rfl
@[simp] theorem State.setViews_serAnswers (h : Header) : (s.setViews h).serAnswers = s.serAnswers := rfl
@[simp] theorem State.setViews_serRequest (h : Header) : (s.setViews h).serRequest = s.serRequest := rfl
@[simp] theorem State.setViews_resp (h : Header) : (s.setViews h).resp = s.resp := rfl
@[simp] theorem State.setViews_size (h : Header) (sp : Space) : (s.setViews h).size sp = s.size sp := by
  cases sp <;> rfl

/-! ## s.putBytes .tx a bs -/

@[simp] theorem State.putTx_params (a : Nat) (bs : List Byte) : (s.putBytes .tx a bs).params = s.params := rfl
@[simp] theorem State.putTx_crc (a : Nat) (bs : List Byte) : (s.putBytes .tx a bs).crc = s.crc := rfl
@[simp] theorem State.putTx_phase (a : Nat) (bs : List Byte) : (s.putBytes .tx a bs).phase = s.phase := rfl
@[simp] theorem State.putTx_cur (a : Nat) (bs : List Byte) : (s.putBytes .tx a bs).cur = s.cur := rfl
@[simp] theorem State.putTx_bTopicLen (a : Nat) (bs : List Byte) :
    (s.putBytes .tx a bs).bTopicLen = s.bTopicLen := rfl
@[simp] theorem State.putTx_bDataLen (a : Nat) (bs : List Byte) : (s.putBytes .tx a bs).bDataLen = s.bDataLen := rfl
@[simp] theorem State.putTx_frameLen (a : Nat) (bs : List Byte) : (s.putBytes .tx a bs).frameLen = s.frameLen := rfl
@[simp] theorem State.putTx_rxLen (a : Nat) (bs : List Byte) : (s.putBytes .tx a bs).rxLen = s.rxLen := rfl
@[simp] theorem State.putTx_hdrValid (a : Nat) (bs : List Byte) : (s.putBytes .tx a bs).hdrValid = s.hdrValid := rfl
@[simp] theorem State.putTx_frameValid (a : Nat) (bs : List Byte) :
    (s.putBytes .tx a bs).frameValid = s.frameValid := rfl
@[simp] theorem State.putTx_trunc (a : Nat) (bs : List Byte) : (s.putBytes .tx a bs).trunc = s.trunc := rfl
@[simp] theorem State.putTx_hMagic (a : Nat) (bs : List Byte) : (s.putBytes .tx a bs).hMagic = s.hMagic := rfl
@[simp] theorem State.putTx_hChecksum (a : Nat) (bs : List Byte) :
    (s.putBytes .tx a bs).hChecksum = s.hChecksum := rfl
@[simp] theorem State.putTx_hOptions (a : Nat) (bs : List Byte) : (s.putBytes .tx a bs).hOptions = s.hOptions := rfl
@[simp] theorem State.putTx_hTopicLen (a : Nat) (bs : List Byte) :
    (s.putBytes .tx a bs).hTopicLen = s.hTopicLen := rfl
@[simp] theorem State.putTx_hDataLen (a : Nat) (bs : List Byte) : (s.putBytes .tx a bs).hDataLen = s.hDataLen := rfl
@[simp] theorem State.putTx_vTopicOff (a : Nat) (bs : List Byte) :
    (s.putBytes .tx a bs).vTopicOff = s.vTopicOff := rfl
@[simp] theorem State.putTx_vTopicLen (a : Nat) (bs : List Byte) :
    (s.putBytes .tx a bs).vTopicLen = s.vTopicLen := rfl
@[simp] theorem State.putTx_vPayloadOff (a : Nat) (bs : List Byte) :
    (s.putBytes .tx a bs).vPayloadOff = s.vPayloadOff := rfl
@[simp] theorem State.putTx_vPayloadLen (a : Nat) (bs : List Byte) :
    (s.putBytes .tx a bs).vPayloadLen = s.vPayloadLen := rfl
@[simp] theorem State.putTx_err (a : Nat) (bs : List Byte) : (s.putBytes .tx a bs).err = s.err := rfl
@[simp] theorem State.putTx_tx (a : Nat) (bs : List Byte) : (s.putBytes .tx a bs).tx = s.tx.writeBytes a bs := rfl
@[simp] theorem State.putTx_rx (a : Nat) (bs : List Byte) : (s.putBytes .tx a bs).rx = s.rx := rfl
@[simp] theorem State.putTx_inbox (a : Nat) (bs : List Byte) : (s.putBytes .tx a bs).inbox = s.inbox := rfl
@[simp] theorem State.putTx_serAnswers (a : Nat) (bs : List Byte) :
    (s.putBytes .tx a bs).serAnswers = s.serAnswers := rfl
@[simp] theorem State.putTx_serRequest (a : Nat) (bs : List Byte) :
    (s.putBytes .tx a bs).serRequest = s.serRequest := rfl
@[simp] theorem State.putTx_resp (a : Nat) (bs : List Byte) : (s.putBytes .tx a bs).resp = s.resp := rfl
@[simp] theorem State.putTx_size (a : Nat) (bs : List Byte) (sp : Space) : (s.putBytes .tx a bs).size sp = s.size sp := by
  cases sp <;> rfl

/-! ## s.putBytes .rx a bs -/

@[simp] theorem State.putRx_params (a : Nat) (bs : List Byte) : (s.putBytes .rx a bs).params = s.params := rfl
@[simp] theorem State.putRx_crc (a : Nat) (bs : List Byte) : (s.putBytes .rx a bs).crc = s.crc := rfl
@[simp] theorem State.putRx_phase (a : Nat) (bs : List Byte) : (s.putBytes .rx a bs).phase = s.phase := rfl
@[simp] theorem State.putRx_cur (a : Nat) (bs : List Byte) : (s.putBytes .rx a bs).cur = s.cur := rfl
@[simp] theorem State.putRx_bTopicLen (a : Nat) (bs : List Byte) :
    (s.putBytes .rx a bs).bTopicLen = s.bTopicLen := rfl
@[simp] theorem State.putRx_bDataLen (a : Nat) (bs : List Byte) : (s.putBytes .rx a bs).bDataLen = s.bDataLen := rfl
@[simp] theorem State.putRx_frameLen (a : Nat) (bs : List Byte) : (s.putBytes .rx a bs).frameLen = s.frameLen := rfl
@[simp] theorem State.putRx_rxLen (a : Nat) (bs : List Byte) : (s.putBytes .rx a bs).rxLen = s.rxLen := rfl
@[simp] theorem State.putRx_hdrValid (a : Nat) (bs : List Byte) : (s.putBytes .rx a bs).hdrValid = s.hdrValid := rfl
@[simp] theorem State.putRx_frameValid (a : Nat) (bs : List Byte) :
    (s.putBytes .rx a bs).frameValid = s.frameValid := rfl
@[simp] theorem State.putRx_trunc (a : Nat) (bs : List Byte) : (s.putBytes .rx a bs).trunc = s.trunc := rfl
@[simp] theorem State.putRx_hMagic (a : Nat) (bs : List Byte) : (s.putBytes .rx a bs).hMagic = s.hMagic := rfl
@[simp] theorem State.putRx_hChecksum (a : Nat) (bs : List Byte) :
    (s.putBytes .rx a bs).hChecksum = s.hChecksum := rfl
@[simp] theorem State.putRx_hOptions (a : Nat) (bs : List Byte) : (s.putBytes .rx a bs).hOptions = s.hOptions := rfl
@[simp] theorem State.putRx_hTopicLen (a : Nat) (bs : List Byte) :
    (s.putBytes .rx a bs).hTopicLen = s.hTopicLen := rfl
@[simp] theorem State.putRx_hDataLen (a : Nat) (bs : List Byte) : (s.putBytes .rx a bs).hDataLen = s.hDataLen := rfl
@[simp] theorem State.putRx_vTopicOff (a : Nat) (bs : List Byte) :
    (s.putBytes .rx a bs).vTopicOff = s.vTopicOff := rfl
@[simp] theorem State.putRx_vTopicLen (a : Nat) (bs : List Byte) :
    (s.putBytes .rx a bs).vTopicLen = s.vTopicLen := rfl
@[simp] theorem State.putRx_vPayloadOff (a : Nat) (bs : List Byte) :
    (s.putBytes .rx a bs).vPayloadOff = s.vPayloadOff := rfl
@[simp] theorem State.putRx_vPayloadLen (a : Nat) (bs : List Byte) :
    (s.putBytes .rx a bs).vPayloadLen = s.vPayloadLen := rfl
@[simp] theorem State.putRx_err (a : Nat) (bs : List Byte) : (s.putBytes .rx a bs).err = s.err := rfl
@[simp] theorem State.putRx_tx (a : Nat) (bs : List Byte) : (s.putBytes .rx a bs).tx = s.tx := rfl
@[simp] theorem State.putRx_rx (a : Nat) (bs : List Byte) : (s.putBytes .rx a bs).rx = s.rx.writeBytes a bs := rfl
@[simp] theorem State.putRx_inbox (a : Nat) (bs : List Byte) : (s.putBytes .rx a bs).inbox = s.inbox := rfl
@[simp] theorem State.putRx_serAnswers (a : Nat) (bs : List Byte) :
    (s.putBytes .rx a bs).serAnswers = s.serAnswers := rfl
@[simp] theorem State.putRx_serRequest (a : Nat) (bs : List Byte) :
    (s.putBytes .rx a bs).serRequest = s.serRequest := rfl
@[simp] theorem State.putRx_resp (a : Nat) (bs : List Byte) : (s.putBytes .rx a bs).resp = s.resp := rfl
@[simp] theorem State.putRx_size (a : Nat) (bs : List Byte) (sp : Space) : (s.putBytes .rx a bs).size sp = s.size sp := by
  cases sp <;> rfl

/-! ## s.putPayload bs -/

@[simp] theorem State.putPayload_params (bs : List Byte) : (s.putPayload bs).params = s.params := rfl
@[simp] theorem State.putPayload_crc (bs : List Byte) : (s.putPayload bs).crc = s.crc := rfl
@[simp] theorem State.putPayload_phase (bs : List Byte) : (s.putPayload bs).phase = .data := rfl
@[simp] theorem State.putPayload_cur (bs : List Byte) :
    (s.putPayload bs).cur = BitVec.ofNat 32 (s.cur.toNat + bs.length) := rfl
@[simp] theorem State.putPayload_bTopicLen (bs : List Byte) : (s.putPayload bs).bTopicLen = s.bTopicLen := rfl
@[simp] theorem State.putPayload_bDataLen (bs : List Byte) :
    (s.putPayload bs).bDataLen = BitVec.ofNat 32 bs.length := rfl
@[simp] theorem State.putPayload_frameLen (bs : List Byte) : (s.putPayload bs).frameLen = s.frameLen := rfl
@[simp] theorem State.putPayload_rxLen (bs : List Byte) : (s.putPayload bs).rxLen = s.rxLen := rfl
@[simp] theorem State.putPayload_hdrValid (bs : List Byte) : (s.putPayload bs).hdrValid = s.hdrValid := rfl
@[simp] theorem State.putPayload_frameValid (bs : List Byte) : (s.putPayload bs).frameValid = s.frameValid := rfl
@[simp] theorem State.putPayload_trunc (bs : List Byte) : (s.putPayload bs).trunc = s.trunc := rfl
@[simp] theorem State.putPayload_hMagic (bs : List Byte) : (s.putPayload bs).hMagic = s.hMagic := rfl
@[simp] theorem State.putPayload_hChecksum (bs : List Byte) : (s.putPayload bs).hChecksum = s.hChecksum := rfl
@[simp] theorem State.putPayload_hOptions (bs : List Byte) : (s.putPayload bs).hOptions = s.hOptions := rfl
@[simp] theorem State.putPayload_hTopicLen (bs : List Byte) : (s.putPayload bs).hTopicLen = s.hTopicLen := rfl
@[simp] theorem State.putPayload_hDataLen (bs : List Byte) : (s.putPayload bs).hDataLen = s.hDataLen := rfl
@[simp] theorem State.putPayload_vTopicOff (bs : List Byte) : (s.putPayload bs).vTopicOff = s.vTopicOff := rfl
@[simp] theorem State.putPayload_vTopicLen (bs : List Byte) : (s.putPayload bs).vTopicLen = s.vTopicLen := rfl
@[simp] theorem State.putPayload_vPayloadOff (bs : List Byte) : (s.putPayload bs).vPayloadOff = s.vPayloadOff := rfl
@[simp] theorem State.putPayload_vPayloadLen (bs : List Byte) : (s.putPayload bs).vPayloadLen = s.vPayloadLen := rfl
@[simp] theorem State.putPayload_err (bs : List Byte) : (s.putPayload bs).err = s.err := rfl
@[simp] theorem State.putPayload_tx (bs : List Byte) : (s.putPayload bs).tx = s.tx.writeBytes s.cur.toNat bs := rfl
@[simp] theorem State.putPayload_rx (bs : List Byte) : (s.putPayload bs).rx = s.rx := rfl
@[simp] theorem State.putPayload_inbox (bs : List Byte) : (s.putPayload bs).inbox = s.inbox := rfl
@[simp] theorem State.putPayload_serAnswers (bs : List Byte) : (s.putPayload bs).serAnswers = s.serAnswers := rfl
@[simp] theorem State.putPayload_serRequest (bs : List Byte) : (s.putPayload bs).serRequest = s.serRequest := rfl
@[simp] theorem State.putPayload_resp (bs : List Byte) : (s.putPayload bs).resp = s.resp := rfl
@[simp] theorem State.putPayload_size (bs : List Byte) (sp : Space) : (s.putPayload bs).size sp = s.size sp := by
  cases sp <;> rfl

/-! ## s.askSerializer v as -/

@[simp] theorem State.askSerializer_params (v : Word) (as : List SerAnswer) :
    (s.askSerializer v as).params = s.params := rfl
@[simp] theorem State.askSerializer_crc (v : Word) (as : List SerAnswer) : (s.askSerializer v as).crc = s.crc := rfl
@[simp] theorem State.askSerializer_phase (v : Word) (as : List SerAnswer) :
    (s.askSerializer v as).phase = s.phase := rfl
@[simp] theorem State.askSerializer_cur (v : Word) (as : List SerAnswer) : (s.askSerializer v as).cur = s.cur := rfl
@[simp] theorem State.askSerializer_bTopicLen (v : Word) (as : List SerAnswer) :
    (s.askSerializer v as).bTopicLen = s.bTopicLen := rfl
@[simp] theorem State.askSerializer_bDataLen (v : Word) (as : List SerAnswer) :
    (s.askSerializer v as).bDataLen = s.bDataLen := rfl
@[simp] theorem State.askSerializer_frameLen (v : Word) (as : List SerAnswer) :
    (s.askSerializer v as).frameLen = s.frameLen := rfl
@[simp] theorem State.askSerializer_rxLen (v : Word) (as : List SerAnswer) :
    (s.askSerializer v as).rxLen = s.rxLen := rfl
@[simp] theorem State.askSerializer_hdrValid (v : Word) (as : List SerAnswer) :
    (s.askSerializer v as).hdrValid = s.hdrValid := rfl
@[simp] theorem State.askSerializer_frameValid (v : Word) (as : List SerAnswer) :
    (s.askSerializer v as).frameValid = s.frameValid := rfl
@[simp] theorem State.askSerializer_trunc (v : Word) (as : List SerAnswer) :
    (s.askSerializer v as).trunc = s.trunc := rfl
@[simp] theorem State.askSerializer_hMagic (v : Word) (as : List SerAnswer) :
    (s.askSerializer v as).hMagic = s.hMagic := rfl
@[simp] theorem State.askSerializer_hChecksum (v : Word) (as : List SerAnswer) :
    (s.askSerializer v as).hChecksum = s.hChecksum := rfl
@[simp] theorem State.askSerializer_hOptions (v : Word) (as : List SerAnswer) :
    (s.askSerializer v as).hOptions = s.hOptions := rfl
@[simp] theorem State.askSerializer_hTopicLen (v : Word) (as : List SerAnswer) :
    (s.askSerializer v as).hTopicLen = s.hTopicLen := rfl
@[simp] theorem State.askSerializer_hDataLen (v : Word) (as : List SerAnswer) :
    (s.askSerializer v as).hDataLen = s.hDataLen := rfl
@[simp] theorem State.askSerializer_vTopicOff (v : Word) (as : List SerAnswer) :
    (s.askSerializer v as).vTopicOff = s.vTopicOff := rfl
@[simp] theorem State.askSerializer_vTopicLen (v : Word) (as : List SerAnswer) :
    (s.askSerializer v as).vTopicLen = s.vTopicLen := rfl
@[simp] theorem State.askSerializer_vPayloadOff (v : Word) (as : List SerAnswer) :
    (s.askSerializer v as).vPayloadOff = s.vPayloadOff := rfl
@[simp] theorem State.askSerializer_vPayloadLen (v : Word) (as : List SerAnswer) :
    (s.askSerializer v as).vPayloadLen = s.vPayloadLen := rfl
@[simp] theorem State.askSerializer_err (v : Word) (as : List SerAnswer) : (s.askSerializer v as).err = s.err := rfl
@[simp] theorem State.askSerializer_tx (v : Word) (as : List SerAnswer) :
    (s.askSerializer v as).tx = s.tx.forget s.cur.toNat (s.size .tx) := rfl
@[simp] theorem State.askSerializer_rx (v : Word) (as : List SerAnswer) : (s.askSerializer v as).rx = s.rx := rfl
@[simp] theorem State.askSerializer_inbox (v : Word) (as : List SerAnswer) :
    (s.askSerializer v as).inbox = s.inbox := rfl
@[simp] theorem State.askSerializer_serAnswers (v : Word) (as : List SerAnswer) :
    (s.askSerializer v as).serAnswers = as := rfl
@[simp] theorem State.askSerializer_serRequest (v : Word) (as : List SerAnswer) :
    (s.askSerializer v as).serRequest = some ⟨v, s.size .tx - s.cur.toNat⟩ := rfl
@[simp] theorem State.askSerializer_resp (v : Word) (as : List SerAnswer) :
    (s.askSerializer v as).resp = s.resp := rfl
@[simp] theorem State.askSerializer_size (v : Word) (as : List SerAnswer) (sp : Space) : (s.askSerializer v as).size sp = s.size sp := by
  cases sp <;> rfl

/-! ## s.taken es -/

@[simp] theorem State.taken_params (es : List HostEvent) : (s.taken es).params = s.params := rfl
@[simp] theorem State.taken_crc (es : List HostEvent) : (s.taken es).crc = s.crc := rfl
@[simp] theorem State.taken_phase (es : List HostEvent) : (s.taken es).phase = s.phase := rfl
@[simp] theorem State.taken_cur (es : List HostEvent) : (s.taken es).cur = s.cur := rfl
@[simp] theorem State.taken_bTopicLen (es : List HostEvent) : (s.taken es).bTopicLen = s.bTopicLen := rfl
@[simp] theorem State.taken_bDataLen (es : List HostEvent) : (s.taken es).bDataLen = s.bDataLen := rfl
@[simp] theorem State.taken_frameLen (es : List HostEvent) : (s.taken es).frameLen = s.frameLen := rfl
@[simp] theorem State.taken_rxLen (es : List HostEvent) : (s.taken es).rxLen = s.rxLen := rfl
@[simp] theorem State.taken_hdrValid (es : List HostEvent) : (s.taken es).hdrValid = s.hdrValid := rfl
@[simp] theorem State.taken_frameValid (es : List HostEvent) : (s.taken es).frameValid = s.frameValid := rfl
@[simp] theorem State.taken_trunc (es : List HostEvent) : (s.taken es).trunc = s.trunc := rfl
@[simp] theorem State.taken_hMagic (es : List HostEvent) : (s.taken es).hMagic = s.hMagic := rfl
@[simp] theorem State.taken_hChecksum (es : List HostEvent) : (s.taken es).hChecksum = s.hChecksum := rfl
@[simp] theorem State.taken_hOptions (es : List HostEvent) : (s.taken es).hOptions = s.hOptions := rfl
@[simp] theorem State.taken_hTopicLen (es : List HostEvent) : (s.taken es).hTopicLen = s.hTopicLen := rfl
@[simp] theorem State.taken_hDataLen (es : List HostEvent) : (s.taken es).hDataLen = s.hDataLen := rfl
@[simp] theorem State.taken_vTopicOff (es : List HostEvent) : (s.taken es).vTopicOff = s.vTopicOff := rfl
@[simp] theorem State.taken_vTopicLen (es : List HostEvent) : (s.taken es).vTopicLen = s.vTopicLen := rfl
@[simp] theorem State.taken_vPayloadOff (es : List HostEvent) : (s.taken es).vPayloadOff = s.vPayloadOff := rfl
@[simp] theorem State.taken_vPayloadLen (es : List HostEvent) : (s.taken es).vPayloadLen = s.vPayloadLen := rfl
@[simp] theorem State.taken_err (es : List HostEvent) : (s.taken es).err = s.err := rfl
@[simp] theorem State.taken_tx (es : List HostEvent) : (s.taken es).tx = s.tx := rfl
@[simp] theorem State.taken_rx (es : List HostEvent) : (s.taken es).rx = s.rx := rfl
@[simp] theorem State.taken_inbox (es : List HostEvent) : (s.taken es).inbox = es := rfl
@[simp] theorem State.taken_serAnswers (es : List HostEvent) : (s.taken es).serAnswers = s.serAnswers := rfl
@[simp] theorem State.taken_serRequest (es : List HostEvent) : (s.taken es).serRequest = s.serRequest := rfl
@[simp] theorem State.taken_resp (es : List HostEvent) : (s.taken es).resp = s.resp := rfl
@[simp] theorem State.taken_size (es : List HostEvent) (sp : Space) : (s.taken es).size sp = s.size sp := by
  cases sp <;> rfl

/-! ## s.issue c -/

@[simp] theorem State.issue_params (c : Command) : (s.issue c).params = s.params := rfl
@[simp] theorem State.issue_crc (c : Command) : (s.issue c).crc = s.crc := rfl
@[simp] theorem State.issue_phase (c : Command) : (s.issue c).phase = s.phase := rfl
@[simp] theorem State.issue_cur (c : Command) : (s.issue c).cur = s.cur := rfl
@[simp] theorem State.issue_bTopicLen (c : Command) : (s.issue c).bTopicLen = s.bTopicLen := rfl
@[simp] theorem State.issue_bDataLen (c : Command) : (s.issue c).bDataLen = s.bDataLen := rfl
@[simp] theorem State.issue_frameLen (c : Command) : (s.issue c).frameLen = s.frameLen := rfl
@[simp] theorem State.issue_rxLen (c : Command) : (s.issue c).rxLen = s.rxLen := rfl
@[simp] theorem State.issue_hdrValid (c : Command) : (s.issue c).hdrValid = s.hdrValid := rfl
@[simp] theorem State.issue_frameValid (c : Command) : (s.issue c).frameValid = s.frameValid := rfl
@[simp] theorem State.issue_trunc (c : Command) : (s.issue c).trunc = s.trunc := rfl
@[simp] theorem State.issue_hMagic (c : Command) : (s.issue c).hMagic = s.hMagic := rfl
@[simp] theorem State.issue_hChecksum (c : Command) : (s.issue c).hChecksum = s.hChecksum := rfl
@[simp] theorem State.issue_hOptions (c : Command) : (s.issue c).hOptions = s.hOptions := rfl
@[simp] theorem State.issue_hTopicLen (c : Command) : (s.issue c).hTopicLen = s.hTopicLen := rfl
@[simp] theorem State.issue_hDataLen (c : Command) : (s.issue c).hDataLen = s.hDataLen := rfl
@[simp] theorem State.issue_vTopicOff (c : Command) : (s.issue c).vTopicOff = s.vTopicOff := rfl
@[simp] theorem State.issue_vTopicLen (c : Command) : (s.issue c).vTopicLen = s.vTopicLen := rfl
@[simp] theorem State.issue_vPayloadOff (c : Command) : (s.issue c).vPayloadOff = s.vPayloadOff := rfl
@[simp] theorem State.issue_vPayloadLen (c : Command) : (s.issue c).vPayloadLen = s.vPayloadLen := rfl
@[simp] theorem State.issue_err (c : Command) : (s.issue c).err = s.err := rfl
@[simp] theorem State.issue_tx (c : Command) : (s.issue c).tx = s.tx := rfl
@[simp] theorem State.issue_rx (c : Command) : (s.issue c).rx = s.rx := rfl
@[simp] theorem State.issue_inbox (c : Command) : (s.issue c).inbox = .command c :: s.inbox := rfl
@[simp] theorem State.issue_serAnswers (c : Command) : (s.issue c).serAnswers = s.serAnswers := rfl
@[simp] theorem State.issue_serRequest (c : Command) : (s.issue c).serRequest = s.serRequest := rfl
@[simp] theorem State.issue_resp (c : Command) : (s.issue c).resp = s.resp := rfl
@[simp] theorem State.issue_size (c : Command) (sp : Space) : (s.issue c).size sp = s.size sp := by
  cases sp <;> rfl

/-! ## s.resetEvent -/

@[simp] theorem State.resetEvent_params : s.resetEvent.params = s.params := rfl
@[simp] theorem State.resetEvent_inbox : s.resetEvent.inbox = s.inbox := rfl
@[simp] theorem State.resetEvent_serAnswers : s.resetEvent.serAnswers = s.serAnswers := rfl
@[simp] theorem State.resetEvent_tx : s.resetEvent.tx = [] := rfl
@[simp] theorem State.resetEvent_rx : s.resetEvent.rx = [] := rfl
@[simp] theorem State.resetEvent_resp : s.resetEvent.resp = none := rfl

/-! ## The spaces and the header -/

@[simp] theorem State.size_tx : s.size .tx = s.params.capacity.toNat := rfl
@[simp] theorem State.size_rx : s.size .rx = s.params.rxcap.toNat := rfl
@[simp] theorem State.mem_tx : s.mem .tx = s.tx := rfl
@[simp] theorem State.mem_rx : s.mem .rx = s.rx := rfl
@[simp] theorem State.readByte_tx (a : Nat) : s.readByte .tx a = s.tx.read a := rfl
@[simp] theorem State.readByte_rx (a : Nat) : s.readByte .rx a = s.rx.read a := rfl
@[simp] theorem State.setHeader_header (h : Header) : (s.setHeader h).header = h := rfl

end Sys2Proof.Machine
end

