-- ==== Sys2Proof/Laws/Ops.lean ====
section
/-!
SUPPORT. One lemma per shared operation that says all it can do, for proofs to cite instead of unfolding it.
-/
namespace Sys2Proof.Machine

variable (s : State)

/-! ## MemRead and MemWrite -/

/-- MemRead answers bytes exactly when the range lies in the space and every byte of it holds a value (R52). -/
theorem State.memRead_eq_ok {sp : Space} {a n : Nat} {bs : List Byte} :
    s.memRead sp a n = .ok bs ↔ a + n ≤ s.size sp ∧ (s.mem sp).readBytes a n = some bs := by
  simp only [State.memRead]
  split
  · rename_i h
    cases hb : (s.mem sp).readBytes a n <;> simp [h]
  · rename_i h
    simp [h]

/-- MemWrite succeeds exactly when the range lies in the space (R53). -/
theorem State.memWrite_eq_ok {sp : Space} {a : Nat} {bs : List Byte} {t : State} :
    s.memWrite sp a bs = .ok t ↔ a + bs.length ≤ s.size sp ∧ t = s.putBytes sp a bs := by
  simp only [State.memWrite]
  split
  · rename_i h
    simp [h, eq_comm]
  · rename_i h
    simp [h]

/-- A command that reads bytes goes on with them when MemRead answers them. -/
theorem State.withBytes_of_read {sp : Space} {a n : Nat} {bs : List Byte} (k : List Byte → Outcome)
    (hsize : a + n ≤ s.size sp) (hread : (s.mem sp).readBytes a n = some bs) : s.withBytes sp a n k = k bs := by
  simp only [State.withBytes, (s.memRead_eq_ok).2 ⟨hsize, hread⟩]

/-- If a command that reads bytes answers a next state, MemRead gave it the bytes. -/
theorem State.withBytes_eq_next {sp : Space} {a n : Nat} {k : List Byte → Outcome} {t : State}
    (h : s.withBytes sp a n k = .next t) :
    ∃ bs, a + n ≤ s.size sp ∧ (s.mem sp).readBytes a n = some bs ∧ k bs = .next t := by
  simp only [State.withBytes] at h
  split at h
  · rename_i bs hbs
    obtain ⟨h1, h2⟩ := (s.memRead_eq_ok).1 hbs
    exact ⟨bs, h1, h2, h⟩
  · cases h

/-- The header step of HDR_DECODE and FRAME_PARSE: rejected, or gone on with the header in RX (R104, R145). -/
theorem State.withRxHeader_eq_next {k : Header → Outcome} {t : State} (h : s.withRxHeader k = .next t) :
    (s.rxLen.toNat < headerBytes ∧ t = s.clearValid.reject .truncatedHeader) ∨
    (headerBytes ≤ s.rxLen.toNat ∧ headerBytes ≤ s.size .rx ∧
      ∃ bs, s.rx.readBytes 0 headerBytes = some bs ∧ k (headerFields bs) = .next t) := by
  simp only [State.withRxHeader] at h
  split at h
  · rename_i hlt
    exact .inl ⟨hlt, by cases h; rfl⟩
  · rename_i hlt
    obtain ⟨bs, h1, h2, h3⟩ := s.withBytes_eq_next h
    exact .inr ⟨by omega, by omega, bs, h2, h3⟩

/-- With a header's bytes in RX the header step goes on with its fields. -/
theorem State.withRxHeader_of_read (k : Header → Outcome) {bs : List Byte} (hlen : headerBytes ≤ s.rxLen.toNat)
    (hsize : headerBytes ≤ s.size .rx) (hread : s.rx.readBytes 0 headerBytes = some bs) :
    s.withRxHeader k = k (headerFields bs) := by
  simp only [State.withRxHeader]
  rw [if_neg (by omega), s.withBytes_of_read (sp := .rx) _ (by omega) hread]

/-! ## Sequences -/

@[simp] theorem execAll_nil : execAll [] s = .next s := rfl

theorem execAll_cons_of_next {i : Instr} {is : List Instr} {t : State} (h : exec i s = .next t) :
    execAll (i :: is) s = execAll is t := by
  simp [execAll, h, andThen]

theorem execAll_append (is js : List Instr) : execAll (is ++ js) s = andThen (execAll is s) (execAll js) := by
  induction is generalizing s with
  | nil => rfl
  | cons i is ih =>
    simp only [List.cons_append, execAll]
    cases exec i s with
    | next t => exact ih t
    | fault f => rfl
    | refused r => rfl

end Sys2Proof.Machine
end

