-- ==== Sys2Proof/Laws/Claims.lean ====
section
/-!
SUPPORT. The terms of Safety.lean against the operations of Machine/: what a read and a write say in those terms.
-/
namespace Sys2Proof.Machine

variable (s : State)

/-- A range of memory reads as `bs` exactly when its bytes are `bs`, one by one. -/
theorem readBytes_eq_some_iff (m : Memory) (a : Nat) (bs : List Byte) :
    m.readBytes a bs.length = some bs ↔ ∀ j, j < bs.length → m.read (a + j) = bs[j]? := by
  constructor
  · intro h j hj
    exact (m.readBytes_getElem h hj).symm
  · intro h
    obtain ⟨cs, hcs⟩ := Option.isSome_iff_exists.1 ((m.readBytes_isSome a bs.length).2 fun b h1 h2 => by
      have := h (b - a) (by omega)
      rw [show a + (b - a) = b by omega] at this
      rw [this]
      simp only [List.getElem?_eq_getElem (show b - a < bs.length by omega), Option.isSome_some])
    have hlen := m.readBytes_length hcs
    rw [hcs]
    congr 1
    apply List.ext_getElem?
    intro j
    by_cases hj : j < bs.length
    · rw [m.readBytes_getElem hcs hj, h j hj]
    · rw [List.getElem?_eq_none (by omega), List.getElem?_eq_none (by omega)]

theorem holds_iff_readBytes (sp : Space) (a : Nat) (bs : List Byte) :
    Holds s sp a bs ↔ (s.mem sp).readBytes a bs.length = some bs :=
  (readBytes_eq_some_iff (s.mem sp) a bs).symm

/-- MemRead in terms of `Holds`. -/
theorem withBytes_of_holds {sp : Space} {a : Nat} {bs : List Byte} (k : List Byte → Outcome)
    (hsize : a + bs.length ≤ s.size sp) (h : Holds s sp a bs) : s.withBytes sp a bs.length k = k bs :=
  s.withBytes_of_read k hsize ((holds_iff_readBytes s sp a bs).1 h)

/-- A write puts its bytes at their places and leaves the rest (R53). -/
theorem writtenAt_writeBytes (m : Memory) (a : Nat) (bs : List Byte) : WrittenAt m (m.writeBytes a bs) a bs := by
  intro b
  split
  · rename_i h
    have := m.read_writeBytes_inside a (b - a) bs (by omega)
    rwa [show a + (b - a) = b by omega] at this
  · exact m.read_writeBytes_outside a b bs (by omega)

/-- A range every byte of which holds a value can be read. -/
theorem exists_readBytes_of_written {m : Memory} {lo hi : Nat} (h : spanWritten m lo hi) {a n : Nat} (h1 : lo ≤ a)
    (h2 : a + n ≤ hi) : ∃ bs, m.readBytes a n = some bs :=
  Option.isSome_iff_exists.1 ((m.readBytes_isSome a n).2 fun b hb hb' => h b (by omega) (by omega))

/-- With a complete frame the views have the declared lengths (R41), so VERIFY checksums one range by R35 and by R156. -/
theorem DecoderInv.viewsDeclared {s : State} (h : DecoderInv s) (hf : s.frameValid = true) (ht : s.trunc = false) :
    s.viewsDeclared := by
  obtain ⟨h1, h2, -, -, -, h3⟩ := h.views hf
  obtain ⟨h4, h5⟩ := h3.1 ht
  have h6 : s.vTopicOff.toNat = headerBytes := by rw [h1]; rfl
  exact ⟨h6, by omega, h4, h5⟩

end Sys2Proof.Machine
end

