-- ==== Sys2Proof/Laws/Codec.lean ====
section
/-!
SUPPORT. The laws of byte order and of the header functions (20_memory.md R55–R58; 40_header_codec.md R100, R101) and the
bounds of the clamped views (42_frame_decode.md R143, R144).
-/
namespace Sys2Proof.Machine

@[simp] theorem be32_length (v : Word) : (be32 v).length = 4 := rfl
@[simp] theorem be16_length (v : Half) : (be16 v).length = 2 := rfl
@[simp] theorem encodeHeader_length (h : Header) : (encodeHeader h).length = 16 := rfl

/-- The bytes of a 32-bit value, put together again (R57). -/
theorem word_of_bytes (v : Word) :
    ((v.extractLsb' 24 8).zeroExtend 32 <<< 24) ||| ((v.extractLsb' 16 8).zeroExtend 32 <<< 16)
      ||| ((v.extractLsb' 8 8).zeroExtend 32 <<< 8) ||| (v.extractLsb' 0 8).zeroExtend 32 = v := by
  apply BitVec.eq_of_getLsbD_eq
  intro i hi
  simp only [BitVec.getLsbD_or, BitVec.getLsbD_shiftLeft, BitVec.truncate_eq_setWidth, BitVec.getLsbD_setWidth,
    BitVec.getLsbD_extractLsb']
  interval_cases i <;> simp

/-- The bytes of a 16-bit value, put together again (R58). -/
theorem half_of_bytes (v : Half) :
    ((v.extractLsb' 8 8).zeroExtend 16 <<< 8) ||| (v.extractLsb' 0 8).zeroExtend 16 = v := by
  apply BitVec.eq_of_getLsbD_eq
  intro i hi
  simp only [BitVec.getLsbD_or, BitVec.getLsbD_shiftLeft, BitVec.truncate_eq_setWidth, BitVec.getLsbD_setWidth,
    BitVec.getLsbD_extractLsb']
  interval_cases i <;> simp

/-- Four bytes of a string, as `be32` of the value `rd32` reads there (R55, R57). -/
theorem be32_of_bytes (a b c d : Byte) :
    be32 ((a.zeroExtend 32 <<< 24) ||| (b.zeroExtend 32 <<< 16) ||| (c.zeroExtend 32 <<< 8) ||| d.zeroExtend 32)
      = [a, b, c, d] := by
  simp only [be32, List.cons.injEq, and_true]
  refine ⟨?_, ?_, ?_, ?_⟩ <;>
    (apply BitVec.eq_of_getLsbD_eq
     intro i hi
     simp only [BitVec.getLsbD_or, BitVec.getLsbD_shiftLeft, BitVec.truncate_eq_setWidth, BitVec.getLsbD_setWidth,
       BitVec.getLsbD_extractLsb']
     interval_cases i <;> simp)

/-- Two bytes of a string, as `be16` of the value `rd16` reads there (R56, R58). -/
theorem be16_of_bytes (a b : Byte) : be16 ((a.zeroExtend 16 <<< 8) ||| b.zeroExtend 16) = [a, b] := by
  simp only [be16, List.cons.injEq, and_true]
  refine ⟨?_, ?_⟩ <;>
    (apply BitVec.eq_of_getLsbD_eq
     intro i hi
     simp only [BitVec.getLsbD_or, BitVec.getLsbD_shiftLeft, BitVec.truncate_eq_setWidth, BitVec.getLsbD_setWidth,
       BitVec.getLsbD_extractLsb']
     interval_cases i <;> simp)

/-- Reading the fields of an encoded header gives them back, whatever follows. -/
theorem headerFields_encodeHeader_append (h : Header) (rest : List Byte) :
    headerFields (encodeHeader h ++ rest) = h := by
  obtain ⟨m, c, o, t, d⟩ := h
  simp only [headerFields, encodeHeader, be32, be16, rd32, rd16, byteAt, List.cons_append, List.nil_append,
    List.getD_cons_zero, List.getD_cons_succ, Header.mk.injEq]
  exact ⟨word_of_bytes m, word_of_bytes c, half_of_bytes o, half_of_bytes t, word_of_bytes d⟩

/-- The views never reach past RXLEN or the declared end (R143, R144). -/
theorem topicEnd_le_clampedEnd (h : Header) (n : Nat) : topicEnd h n ≤ clampedEnd h n := Nat.min_le_right _ _

theorem clampedEnd_le (h : Header) (n : Nat) : clampedEnd h n ≤ n := Nat.min_le_right _ _

theorem headerBytes_le_topicEnd (h : Header) {n : Nat} (hn : headerBytes ≤ n) : headerBytes ≤ topicEnd h n := by
  simp only [topicEnd, clampedEnd, declaredEnd]
  omega

end Sys2Proof.Machine
end

