-- ==== Sys2Proof/Laws/Crc.lean ====
section
/-!
SUPPORT. The laws of the CRC function (41_checksum.md R122).
-/
namespace Sys2Proof.Machine

@[simp] theorem crcUpdate_nil (c : Word) : crcUpdate c [] = c := rfl

/-- Feeding a concatenation is feeding its parts in order (R122). -/
theorem crcUpdate_append (c : Word) (s t : List Byte) : crcUpdate c (s ++ t) = crcUpdate (crcUpdate c s) t :=
  List.foldl_append

/-- Feeding several strings one after the other is feeding their concatenation. -/
theorem crcUpdate_flatten (c : Word) (parts : List (List Byte)) :
    parts.foldl crcUpdate c = crcUpdate c parts.flatten := by
  induction parts generalizing c with
  | nil => rfl
  | cons p ps ih => rw [List.foldl_cons, ih, List.flatten_cons, crcUpdate_append]

@[simp] theorem crcFinish_crcFinish (c : Word) : crcFinish (crcFinish c) = c := by
  simp [crcFinish]

end Sys2Proof.Machine
end

