-- ==== Sys2Proof/Laws/Decode.lean ====
section
/-!
SUPPORT. The laws of the command word, the opcode map and the decoder (30_encoding.md R79–R83).
-/
namespace Sys2Proof

/-! ## The command word -/

theorem extract_opc (a : Half) (b c : Byte) : (a ++ b ++ c : BitVec 32).extractLsb' 0 8 = c := by
  apply BitVec.eq_of_getLsbD_eq
  intro j hj
  simp only [BitVec.getLsbD_extractLsb', BitVec.getLsbD_append]
  interval_cases j <;> simp

theorem extract_arg (a : Half) (b c : Byte) : (a ++ b ++ c : BitVec 32).extractLsb' 8 8 = b := by
  apply BitVec.eq_of_getLsbD_eq
  intro j hj
  simp only [BitVec.getLsbD_extractLsb', BitVec.getLsbD_append]
  interval_cases j <;> simp

theorem extract_rsvd (a : Half) (b c : Byte) : (a ++ b ++ c : BitVec 32).extractLsb' 16 16 = a := by
  apply BitVec.eq_of_getLsbD_eq
  intro j hj
  simp only [BitVec.getLsbD_extractLsb', BitVec.getLsbD_append]
  interval_cases j <;> simp

/-- A command word is its three fields (R79). -/
theorem word_of_fields (w : Word) : (w.extractLsb' 16 16 ++ w.extractLsb' 8 8 ++ w.extractLsb' 0 8 : BitVec 32) = w := by
  apply BitVec.eq_of_getLsbD_eq
  intro j hj
  simp only [BitVec.getLsbD_append, BitVec.getLsbD_extractLsb']
  interval_cases j <;> simp

theorem extract_high (a b : Half) : (a ++ b : BitVec 32).extractLsb' 16 16 = a := by
  apply BitVec.eq_of_getLsbD_eq
  intro j hj
  simp only [BitVec.getLsbD_extractLsb', BitVec.getLsbD_append]
  interval_cases j <;> simp

theorem extract_low (a b : Half) : (a ++ b : BitVec 32).extractLsb' 0 16 = b := by
  apply BitVec.eq_of_getLsbD_eq
  intro j hj
  simp only [BitVec.getLsbD_extractLsb', BitVec.getLsbD_append]
  interval_cases j <;> simp

theorem word_of_halves (w : Word) : (w.extractLsb' 16 16 ++ w.extractLsb' 0 16 : BitVec 32) = w := by
  apply BitVec.eq_of_getLsbD_eq
  intro j hj
  simp only [BitVec.getLsbD_append, BitVec.getLsbD_extractLsb']
  interval_cases j <;> simp

@[simp] theorem commandWord_opc (op : Op) (arg : Byte) : (commandWord op arg).extractLsb' 0 8 = op.code :=
  extract_opc _ _ _

@[simp] theorem commandWord_arg (op : Op) (arg : Byte) : (commandWord op arg).extractLsb' 8 8 = arg :=
  extract_arg _ _ _

@[simp] theorem commandWord_rsvd (op : Op) (arg : Byte) : (commandWord op arg).extractLsb' 16 16 = 0#16 :=
  extract_rsvd _ _ _

/-! ## The opcode map -/

theorem Op.mem_all (op : Op) : op ∈ Op.all := by
  cases op <;> decide

theorem Op.code_injective {op op' : Op} (h : op.code = op'.code) : op = op' := by
  cases op <;> cases op' <;> first | rfl | (exact absurd h (by decide))

@[simp] theorem Op.ofCode_code (op : Op) : Op.ofCode op.code = some op := by
  cases op <;> rfl

theorem Op.ofCode_eq_some {b : Byte} {op : Op} : Op.ofCode b = some op ↔ op.code = b := by
  constructor
  · intro h
    simpa using List.find?_some h
  · rintro rfl
    exact Op.ofCode_code op

theorem Op.ofCode_eq_none {b : Byte} : Op.ofCode b = none ↔ ∀ op : Op, op.code ≠ b := by
  simp only [Op.ofCode, List.find?_eq_none, beq_iff_eq]
  exact ⟨fun h op => h op op.mem_all, fun h op _ => h op⟩

/-! ## The decoder -/

theorem Command.shapeError_eq_none {c : Command} {op : Op} :
    c.shapeError op = none ↔
      c.rsvd = 0 ∧ (c.arg = 0 ∨ op.takesArg = true) ∧ c.ops.length = op.operandWords ∧
        (c.data = [] ∨ op.takesData = true) := by
  simp only [Command.shapeError]
  grind

@[simp] theorem Command.assemble_op (c : Command) (op : Op) : (c.assemble op).op = op := by
  cases op <;> rfl

/-- A command decodes to `i` exactly when its OPC names an opcode whose shape it has and whose operands assemble to `i`. -/
theorem decode_eq_ok {c : Command} {i : Instr} :
    decode c = .ok i ↔ ∃ op : Op, op.code = c.opc ∧ c.shapeError op = none ∧ c.assemble op = i := by
  simp only [decode]
  constructor
  · intro h
    split at h
    · cases h
    · rename_i op hop
      split at h
      · cases h
      · rename_i hs
        exact ⟨op, Op.ofCode_eq_some.1 hop, hs, by cases h; rfl⟩
  · rintro ⟨op, hop, hs, rfl⟩
    rw [Op.ofCode_eq_some.2 hop]
    simp [hs]

/-- A command decodes to no instruction exactly when its OPC is reserved or its shape is wrong. -/
theorem decode_eq_error {c : Command} :
    (∃ why, decode c = .error why) ↔ (∀ op : Op, op.code ≠ c.opc) ∨ ∃ op : Op, op.code = c.opc ∧ c.shapeError op ≠ none := by
  cases hop : Op.ofCode c.opc with
  | none => simp [decode, hop, Op.ofCode_eq_none.1 hop]
  | some op =>
    have hc := Op.ofCode_eq_some.1 hop
    have huniq : ∀ op' : Op, op'.code = c.opc → op' = op := fun op' h => Op.code_injective (h.trans hc.symm)
    cases hs : c.shapeError op with
    | none =>
      simp only [decode, hop, hs]
      constructor
      · rintro ⟨_, h⟩
        cases h
      · rintro (h | ⟨op', h, h'⟩)
        · exact absurd hc (h op)
        · exact absurd hs (huniq op' h ▸ h')
    | some why =>
      simp only [decode, hop, hs]
      exact ⟨fun _ => .inr ⟨op, hc, by simp [hs]⟩, fun _ => ⟨why, rfl⟩⟩

/-- The encoder's commands have the opcode of their instruction. -/
@[simp] theorem encode_opc (i : Instr) : (encode i).opc = i.op.code := by
  cases i <;> exact commandWord_opc _ _

namespace Machine

variable (s : State)

/-- What a step does, by the event at the port. -/
theorem step_idle (h : s.inbox = []) : step s = .next s := by
  simp [step, State.runIdle, h]

theorem step_reset {rest : List HostEvent} (h : s.inbox = .reset :: rest) :
    step s = .next (s.taken rest).resetEvent := by
  simp [step, State.runEvent, h]

theorem step_ok {c : Command} {rest : List HostEvent} {i : Instr} (h : s.inbox = .command c :: rest)
    (hd : decode c = .ok i) : step s = exec i (s.taken rest) := by
  simp [step, State.runEvent, State.runCommand, h, hd]

theorem step_error {c : Command} {rest : List HostEvent} {why : IllFormed} (h : s.inbox = .command c :: rest)
    (hd : decode c = .error why) : step s = .next (s.taken rest).rejectIllFormed := by
  simp [step, State.runEvent, State.runCommand, h, hd]

/-- Everything a step can do. -/
theorem step_cases {t : State} (h : step s = .next t) :
    (s.inbox = [] ∧ t = s) ∨
    (∃ rest, s.inbox = .reset :: rest ∧ t = (s.taken rest).resetEvent) ∨
    (∃ c rest i, s.inbox = .command c :: rest ∧ decode c = .ok i ∧ exec i (s.taken rest) = .next t) ∨
    (∃ c rest why, s.inbox = .command c :: rest ∧ decode c = .error why ∧ t = (s.taken rest).rejectIllFormed) := by
  cases hi : s.inbox with
  | nil =>
    rw [step_idle s hi] at h
    cases h
    exact .inl ⟨rfl, rfl⟩
  | cons event rest =>
    cases event with
    | reset =>
      rw [step_reset s hi] at h
      cases h
      exact .inr (.inl ⟨rest, rfl, rfl⟩)
    | command c =>
      cases hd : decode c with
      | ok i =>
        rw [step_ok s hi hd] at h
        exact .inr (.inr (.inl ⟨c, rest, i, rfl, hd, h⟩))
      | error why =>
        rw [step_error s hi hd] at h
        cases h
        exact .inr (.inr (.inr ⟨c, rest, why, rfl, hd, rfl⟩))

end Machine

end Sys2Proof
end

