-- ==== Sys2Proof/Laws/Exec.lean ====
section
/-!
SUPPORT. One inversion lemma per meaning: the states an instruction can answer, with the checks that lead to each. Together
with Laws/State.lean they say what an instruction does without unfolding its meaning. The meanings with one outcome need
none: `exec` of them is `.next` of a named state by `rfl`.
-/
namespace Sys2Proof.Machine

variable {s t : State}

/-- HDR_DECODE (R104). -/
theorem exec_hdrDecode_cases (h : exec .hdrDecode s = .next t) :
    (s.rxLen.toNat < headerBytes ∧ t = s.clearValid.reject .truncatedHeader) ∨
    (headerBytes ≤ s.rxLen.toNat ∧ headerBytes ≤ s.size .rx ∧ ∃ bs, s.rx.readBytes 0 headerBytes = some bs ∧
      t = { (s.clearFrameValid.setHeader (headerFields bs)) with hdrValid := true }.respond .ok
        (headerValues (headerFields bs)) []) := by
  simp only [exec, execHdrDecode] at h
  rcases s.withRxHeader_eq_next h with h | ⟨h1, h2, bs, h3, h4⟩
  · exact .inl h
  · cases h4
    exact .inr ⟨h1, h2, bs, h3, rfl⟩

/-- The state FRAME_PARSE leaves before it answers (R145). -/
def parsedWith (s : State) (h : Header) : State :=
  { ((s.setHeader h).setViews h) with hdrValid := true, frameValid := true, trunc := isTruncated h s.rxLen.toNat }

/-- FRAME_PARSE (R145). -/
theorem exec_frameParse_cases (h : exec .frameParse s = .next t) :
    (s.rxLen.toNat < headerBytes ∧ t = s.clearValid.reject .truncatedHeader) ∨
    (headerBytes ≤ s.rxLen.toNat ∧ headerBytes ≤ s.size .rx ∧ ∃ bs, s.rx.readBytes 0 headerBytes = some bs ∧
      t = (parsedWith s (headerFields bs)).respond
        (if isTruncated (headerFields bs) s.rxLen.toNat then .truncatedFrame else .ok)
        (headerValues (headerFields bs) ++ (parsedWith s (headerFields bs)).viewValues) []) := by
  simp only [exec, execFrameParse] at h
  rcases s.withRxHeader_eq_next h with h | ⟨h1, h2, bs, h3, h4⟩
  · exact .inl h
  · cases h4
    exact .inr ⟨h1, h2, bs, h3, rfl⟩

/-- The kind a masked options value has, or UNKNOWN_MESSAGE_KIND (R151). -/
theorem kindOf_eq_error {mask options : Half} {st : Status} (h : kindOf mask options = .error st) :
    st = .unknownMessageKind := by
  simp only [kindOf] at h
  split at h
  · cases h
  · split at h
    · cases h
    · cases h; rfl

/-- MSG_TYPE (R153). -/
theorem exec_msgType_cases (h : exec .msgType s = .next t) :
    (s.hdrValid = false ∧ t = s.reject .sequenceError) ∨
    (s.hdrValid = true ∧ ∃ st, (st = .ok ∨ st = .unknownMessageKind) ∧
      t = s.respond st [(s.hOptions &&& s.params.kindMask).zeroExtend 32] []) := by
  simp only [exec, execMsgType] at h
  split at h
  · rename_i hv
    cases h
    exact .inl ⟨hv, rfl⟩
  · rename_i hv
    refine .inr ⟨by simpa using hv, ?_⟩
    split at h
    · cases h
      exact ⟨_, .inl rfl, rfl⟩
    · rename_i st hst
      cases h
      exact ⟨_, .inr (kindOf_eq_error hst), rfl⟩

/-- Where the views have the declared lengths, R35 and R156 give VERIFY one range. -/
theorem State.checkedBytes_of_declared (h : s.viewsDeclared) : s.checkedBytes = s.declaredBytes :=
  if_neg fun hn => hn.1 h

/-- In any state VERIFY checksums the range of the declared lengths or the two views. -/
theorem State.checkedBytes_cases (s : State) : s.checkedBytes = s.declaredBytes ∨ s.checkedBytes = s.viewedBytes := by
  simp only [State.checkedBytes]
  split
  · exact .inr rfl
  · exact .inl rfl

@[simp] theorem State.respond_checkedBytes (st : Status) (vs : List Word) (bs : List Byte) :
    (s.respond st vs bs).checkedBytes = s.checkedBytes := rfl

/-- The two views are read exactly when each is. -/
theorem State.viewedBytes_eq_ok {bs : List Byte} :
    s.viewedBytes = .ok bs ↔ ∃ topic payload, s.topicView = .ok topic ∧ s.payloadView = .ok payload ∧ topic ++ payload = bs := by
  simp only [State.viewedBytes]
  cases s.topicView with
  | error f => simp [bind, Except.bind]
  | ok topic => cases s.payloadView <;> simp [bind, Except.bind, pure, Except.pure]

/-- VERIFY of a complete frame with the protocol's magic, by the bytes it checksums. -/
theorem exec_verify_of_checkedBytes {bs : List Byte} (hf : s.frameValid = true) (hm : s.hMagic = s.params.magic)
    (ht : s.trunc = false) (hb : s.checkedBytes = .ok bs) : exec .verify s = .next (s.verdict bs) := by
  simp [exec, execVerify, hf, hm, ht, hb]

/-- VERIFY (R156). -/
theorem exec_verify_cases (h : exec .verify s = .next t) :
    (s.frameValid = false ∧ t = s.reject .sequenceError) ∨
    (s.frameValid = true ∧ s.hMagic ≠ s.params.magic ∧ t = s.reject .invalidMagic) ∨
    (s.frameValid = true ∧ s.hMagic = s.params.magic ∧ s.trunc = true ∧ t = s.reject .truncatedFrame) ∨
    (s.frameValid = true ∧ s.hMagic = s.params.magic ∧ s.trunc = false ∧
      ∃ bs, s.checkedBytes = .ok bs ∧
        ((crc32 bs ≠ s.hChecksum ∧ t = s.respond .checksumMismatch [crc32 bs, s.hChecksum] []) ∨
          (crc32 bs = s.hChecksum ∧ t = s.respond .ok [crc32 bs] []))) := by
  simp only [exec, execVerify] at h
  split at h
  · rename_i h1
    cases h
    exact .inl ⟨h1, rfl⟩
  · rename_i h1
    have h1 : s.frameValid = true := by simpa using h1
    split at h
    · rename_i h2
      cases h
      exact .inr (.inl ⟨h1, h2, rfl⟩)
    · rename_i h2
      have h2 : s.hMagic = s.params.magic := by simpa using h2
      split at h
      · rename_i h3
        cases h
        exact .inr (.inr (.inl ⟨h1, h2, h3, rfl⟩))
      · rename_i h3
        split at h
        · rename_i bs hbs
          cases h
          refine .inr (.inr (.inr ⟨h1, h2, by simpa using h3, bs, hbs, ?_⟩))
          by_cases hc : crc32 bs = s.hChecksum
          · exact .inr ⟨hc, by simp [State.verdict, hc]⟩
          · exact .inl ⟨hc, by simp [State.verdict, hc]⟩
        · cases h

/-- RX_LOAD (R141). -/
theorem exec_rxLoad_cases {data : List Byte} (h : exec (.rxLoad data) s = .next t) :
    (s.size .rx < data.length ∧ t = s.reject .bufferOverrun) ∨
    (data.length ≤ s.size .rx ∧
      t = { (s.putBytes .rx 0 data).clearValid with rxLen := BitVec.ofNat 32 data.length }.respond .ok [] []) := by
  simp only [exec, execRxLoad] at h
  split at h
  · rename_i h1
    cases h
    exact .inl ⟨h1, rfl⟩
  · rename_i h1
    cases h
    exact .inr ⟨by omega, rfl⟩

/-- SET_TOPIC (R180). -/
theorem exec_setTopic_cases {data : List Byte} (h : exec (.setTopic data) s = .next t) :
    (s.phase ≠ .empty ∧ t = s.reject .sequenceError) ∨
    (s.phase = .empty ∧ (maxTopic < data.length ∨ s.size .tx < headerBytes + data.length) ∧
      t = s.reject .capacityExceeded) ∨
    (s.phase = .empty ∧ data.length ≤ maxTopic ∧ headerBytes + data.length ≤ s.size .tx ∧
      t = { (s.putBytes .tx headerBytes data) with
        bTopicLen := BitVec.ofNat 16 data.length
        cur := BitVec.ofNat 32 (headerBytes + data.length)
        phase := .topic }.respond .ok [] []) := by
  simp only [exec, execSetTopic] at h
  split at h
  · rename_i h1
    cases h
    exact .inl ⟨h1, rfl⟩
  · rename_i h1
    have h1 : s.phase = .empty := by simpa using h1
    split at h
    · rename_i h2
      cases h
      exact .inr (.inl ⟨h1, h2, rfl⟩)
    · rename_i h2
      cases h
      exact .inr (.inr ⟨h1, by omega, by omega, rfl⟩)

/-- WRITE_RAW (R182). -/
theorem exec_writeRaw_cases {data : List Byte} (h : exec (.writeRaw data) s = .next t) :
    (s.phase ≠ .topic ∧ t = s.reject .sequenceError) ∨
    (s.phase = .topic ∧ s.size .tx < s.cur.toNat + data.length ∧ t = s.reject .capacityExceeded) ∨
    (s.phase = .topic ∧ s.cur.toNat + data.length ≤ s.size .tx ∧ t = (s.putPayload data).respond .ok [] []) := by
  simp only [exec, execWriteRaw] at h
  split at h
  · rename_i h1
    cases h
    exact .inl ⟨h1, rfl⟩
  · rename_i h1
    have h1 : s.phase = .topic := by simpa using h1
    split at h
    · rename_i h2
      cases h
      exact .inr (.inl ⟨h1, h2, rfl⟩)
    · rename_i h2
      cases h
      exact .inr (.inr ⟨h1, by omega, rfl⟩)

/-- WRITE_VIA (R188). -/
theorem exec_writeVia_cases {valueId : Word} (h : exec (.writeVia valueId) s = .next t) :
    (s.phase ≠ .topic ∧ t = s.reject .sequenceError) ∨
    (s.phase = .topic ∧ s.params.hasSerializer = false ∧ t = s.reject .serializerFailed) ∨
    (s.phase = .topic ∧ s.params.hasSerializer = true ∧ ∃ ans rest, s.serAnswers = ans :: rest ∧
      ((ans = .noFit ∧ t = (s.askSerializer valueId rest).reject .capacityExceeded) ∨
        (ans = .unrepresentable ∧ t = (s.askSerializer valueId rest).reject .serializerFailed) ∨
        (∃ bs, ans = .wrote bs ∧ s.size .tx < s.cur.toNat + bs.length ∧
          t = (s.askSerializer valueId rest).reject .capacityExceeded) ∨
        (∃ bs, ans = .wrote bs ∧ s.cur.toNat + bs.length ≤ s.size .tx ∧
          t = ((s.askSerializer valueId rest).putPayload bs).respond .ok [BitVec.ofNat 32 bs.length] []))) := by
  simp only [exec, execWriteVia] at h
  split at h
  · rename_i h1
    cases h
    exact .inl ⟨h1, rfl⟩
  · rename_i h1
    have h1 : s.phase = .topic := by simpa using h1
    split at h
    · rename_i h2
      cases h
      exact .inr (.inl ⟨h1, h2, rfl⟩)
    · rename_i h2
      have h2 : s.params.hasSerializer = true := by simpa using h2
      refine .inr (.inr ⟨h1, h2, ?_⟩)
      split at h
      · cases h
      · rename_i ans rest hans
        cases h
        refine ⟨ans, rest, hans, ?_⟩
        cases ans with
        | noFit => exact .inl ⟨rfl, rfl⟩
        | unrepresentable => exact .inr (.inl ⟨rfl, rfl⟩)
        | wrote bs =>
          simp only [State.takeAnswer, State.askSerializer_size, State.askSerializer_cur]
          split
          · rename_i h3
            exact .inr (.inr (.inl ⟨bs, rfl, h3, rfl⟩))
          · rename_i h3
            exact .inr (.inr (.inr ⟨bs, rfl, by omega, rfl⟩))

/-- FINALIZE (R191). The header's bytes have a name of their own, so that a proof can forget what they are. -/
theorem exec_finalize_cases {kind : Byte} (h : exec (.finalize kind) s = .next t) :
    (s.phase ≠ .data ∧ t = s.reject .sequenceError) ∨
    (s.phase = .data ∧ (kind ≠ 1 ∧ kind ≠ 2) ∧ t = s.reject .unknownMessageKind) ∨
    (s.phase = .data ∧ (kind = 1 ∨ kind = 2) ∧ ∃ body header : List Byte,
      headerBytes + (s.cur.toNat - headerBytes) ≤ s.size .tx ∧
      s.tx.readBytes headerBytes (s.cur.toNat - headerBytes) = some body ∧
      header = encodeHeader (s.frameHeader kind body) ∧
      t = { (s.putBytes .tx 0 header) with
        frameLen := s.cur, phase := .finalized }.respond .ok [s.cur] []) := by
  simp only [exec, execFinalize] at h
  split at h
  · rename_i h1
    cases h
    exact .inl ⟨h1, rfl⟩
  · rename_i h1
    have h1 : s.phase = .data := by simpa using h1
    split at h
    · rename_i h2
      cases h
      exact .inr (.inl ⟨h1, h2, rfl⟩)
    · rename_i h2
      obtain ⟨body, h3, h4, h5⟩ := s.withBytes_eq_next h
      refine .inr (.inr ⟨h1, by by_cases hk : kind = 1 <;> simp_all, body, _, h3, h4, rfl, ?_⟩)
      rw [(s.memWrite_eq_ok).2 ⟨by simp only [encodeHeader_length, headerBytes] at *; omega, rfl⟩] at h5
      cases h5
      rfl

/-- AS_FRAME (R195). -/
theorem exec_asFrame_cases (h : exec .asFrame s = .next t) :
    (s.phase ≠ .finalized ∧ t = s.reject .sequenceError) ∨
    (s.phase = .finalized ∧ ∃ frame, s.frameLen.toNat ≤ s.size .tx ∧
      s.tx.readBytes 0 s.frameLen.toNat = some frame ∧ t = s.respond .ok [s.frameLen] frame) := by
  simp only [exec, execAsFrame] at h
  split at h
  · rename_i h1
    cases h
    exact .inl ⟨h1, rfl⟩
  · rename_i h1
    obtain ⟨frame, h2, h3, h4⟩ := s.withBytes_eq_next h
    cases h4
    exact .inr ⟨by simpa using h1, frame, by omega, h3, rfl⟩

end Sys2Proof.Machine
end

