-- ==== Sys2Proof/Laws/PerInstr.lean ====
section
/-!
SUPPORT. Statements about every instruction as syntax, one lemma per constructor.
-/
namespace Sys2Proof

/-- A command word without ARG matches its opcode's row (R82). -/
theorem commandWord_zero_matches (op : Op) : (commandWord op 0 &&& op.tableMask) = op.tableMatch := by
  cases op <;> decide

/-- FINALIZE's row leaves ARG free (R82). -/
theorem commandWord_finalize_matches (kind : Byte) :
    (commandWord .finalize kind &&& Op.finalize.tableMask) = Op.finalize.tableMatch := by
  apply BitVec.eq_of_getLsbD_eq
  intro j hj
  simp only [commandWord, Op.tableMask, Op.tableMatch, Op.takesArg, Op.code, BitVec.getLsbD_and, BitVec.getLsbD_append]
  interval_cases j <;> simp

end Sys2Proof

namespace Sys2Proof.Laws.EncodesItsRow

/-- The encoding of an instruction matches the row of its opcode in the opcode table, has the row's number of operand words,
and carries the instruction's data, which is empty unless the row allows data (R80, R82). -/
def Statement (i : Instr) : Prop :=
  ((encode i).w0 &&& i.op.tableMask) = i.op.tableMatch ∧ (encode i).ops.length = i.op.operandWords ∧
    (encode i).data = i.payload ∧ (i.op.takesData = false → (encode i).data = [])

theorem crcInit : Statement .crcInit := ⟨commandWord_zero_matches _, rfl, rfl, fun _ => rfl⟩
theorem crcUpdate (data : List Byte) : Statement (.crcUpdate data) :=
  ⟨commandWord_zero_matches _, rfl, rfl, fun h => by cases h⟩
theorem crcFinal : Statement .crcFinal := ⟨commandWord_zero_matches _, rfl, rfl, fun _ => rfl⟩
theorem crcOneshot (data : List Byte) : Statement (.crcOneshot data) :=
  ⟨commandWord_zero_matches _, rfl, rfl, fun h => by cases h⟩
theorem hdrEncode (magic checksum : Word) (options topicLen : Half) (dataLen : Word) :
    Statement (.hdrEncode magic checksum options topicLen dataLen) := ⟨commandWord_zero_matches _, rfl, rfl, fun _ => rfl⟩
theorem hdrDecode : Statement .hdrDecode := ⟨commandWord_zero_matches _, rfl, rfl, fun _ => rfl⟩
theorem msgType : Statement .msgType := ⟨commandWord_zero_matches _, rfl, rfl, fun _ => rfl⟩
theorem frameParse : Statement .frameParse := ⟨commandWord_zero_matches _, rfl, rfl, fun _ => rfl⟩
theorem verify : Statement .verify := ⟨commandWord_zero_matches _, rfl, rfl, fun _ => rfl⟩
theorem rxLoad (data : List Byte) : Statement (.rxLoad data) :=
  ⟨commandWord_zero_matches _, rfl, rfl, fun h => by cases h⟩
theorem bldReset : Statement .bldReset := ⟨commandWord_zero_matches _, rfl, rfl, fun _ => rfl⟩
theorem setTopic (data : List Byte) : Statement (.setTopic data) :=
  ⟨commandWord_zero_matches _, rfl, rfl, fun h => by cases h⟩
theorem writeRaw (data : List Byte) : Statement (.writeRaw data) :=
  ⟨commandWord_zero_matches _, rfl, rfl, fun h => by cases h⟩
theorem writeVia (valueId : Word) : Statement (.writeVia valueId) :=
  ⟨commandWord_zero_matches _, rfl, rfl, fun _ => rfl⟩
theorem finalize (kind : Byte) : Statement (.finalize kind) :=
  ⟨commandWord_finalize_matches kind, rfl, rfl, fun _ => rfl⟩
theorem asFrame : Statement .asFrame := ⟨commandWord_zero_matches _, rfl, rfl, fun _ => rfl⟩
theorem getStatus : Statement .getStatus := ⟨commandWord_zero_matches _, rfl, rfl, fun _ => rfl⟩

end Sys2Proof.Laws.EncodesItsRow
end

