-- ==== Sys2Proof/Tests/Slice0.lean ====
section
/-!
SUPPORT. Tests. Expected values are the spec's own: the encodings of 30_encoding.md, the worked examples and vectors of
95_test_vectors.md (cited as L1 to L3), and the rules named in each comment. The last part shows, for each statement with
hypotheses, a state and operands that meet them (theorems test_witness_<name of the statement>).
-/
namespace Sys2Proof.Tests
open Sys2Proof Sys2Proof.Machine

set_option Elab.async false

/-! ## Small states -/

/-- An instance with the given buffer sizes, KIND_MASK = 0x0003 and a serializer. -/
def inst (capacity rxcap : Word) : Params :=
  { magic := 0xDEADBEEF, kindMaskHigh := 0, capacity := capacity, rxcap := rxcap, hasSerializer := true }

/-- The state after reset of an instance whose buffers have 64 bytes. -/
def fresh : State := State.resetOf (inst 64 64)

/-- `fresh` with these bytes loaded in RX. -/
def loaded (bs : List Byte) : State :=
  { fresh with rx := (List.range bs.length).zip bs, rxLen := BitVec.ofNat 32 bs.length }

/-- F1 of 95_test_vectors.md. -/
def f1 : List Byte :=
  [0xDE, 0xAD, 0xBE, 0xEF, 0x7B, 0x9A, 0xBF, 0x43, 0x00, 0x01, 0x00, 0x04, 0x00, 0x00, 0x00, 0x08,
   0x74, 0x65, 0x6D, 0x70, 0x7B, 0x22, 0x74, 0x22, 0x3A, 0x32, 0x31, 0x7D]

/-- F1 loaded, with its header decoded and its views made (L3, P2 step 2). -/
def parsed : State :=
  { loaded f1 with
    hdrValid := true, frameValid := true
    hMagic := 0xDEADBEEF, hChecksum := 0x7B9ABF43, hOptions := 1, hTopicLen := 4, hDataLen := 8
    vTopicOff := 16, vTopicLen := 4, vPayloadOff := 20, vPayloadLen := 8 }

/-- The first 22 bytes of F1, parsed (L3, P2 step 6). -/
def cut : State :=
  { loaded (f1.take 22) with
    hdrValid := true, frameValid := true, trunc := true
    hMagic := 0xDEADBEEF, hChecksum := 0x7B9ABF43, hOptions := 1, hTopicLen := 4, hDataLen := 8
    vTopicOff := 16, vTopicLen := 4, vPayloadOff := 20, vPayloadLen := 2 }

/-- The builder in TOPIC with topic "a", on a TX of 18 bytes. -/
def inTopic : State := { State.resetOf (inst 18 64) with phase := .topic, cur := 17, bTopicLen := 1, tx := [(16, 0x61)] }

/-- The builder in DATA with topic "a" and payload "b", TX full. -/
def inData : State := { inTopic with phase := .data, cur := 18, bDataLen := 1, tx := [(16, 0x61), (17, 0x62)] }

/-- The frame of topic "a" and payload "b", kind PUSH: its checksum is crc32("ab") = 0x9E83486D (L2.1). -/
def frameAB : List Byte :=
  [0xDE, 0xAD, 0xBE, 0xEF, 0x9E, 0x83, 0x48, 0x6D, 0x00, 0x01, 0x00, 0x01, 0x00, 0x00, 0x00, 0x01, 0x61, 0x62]

/-- The builder in FINALIZED with that frame. -/
def inFinal : State := { inData with phase := .finalized, frameLen := 18, tx := (List.range 18).zip frameAB }

/-- The next state of an outcome, if it is one. -/
def nextOf : Outcome → Option State
  | .next t => some t
  | .fault _ => none
  | .refused _ => none

/-- The response of one instruction. -/
def respOf (i : Instr) (s : State) : Option Response := (nextOf (exec i s)).bind State.resp

/-- Whether an outcome is the stop of WRITE_VIA. -/
def isStuck : Outcome → Bool
  | .fault .serializerSilent => true
  | .fault (.spaceOverrun _) | .fault (.unwrittenByte _) | .next _ | .refused _ => false

/-! ## Well-formedness: the one bound of the command port (R78) -/

theorem test_wellFormed : (Instr.rxLoad f1).WellFormed ∧ Instr.getStatus.WellFormed := by decide

theorem test_ill_formed_data : ¬(Instr.writeRaw (List.replicate (2 ^ 32) 0)).WellFormed := by
  simp only [Instr.WellFormed, dataFits, Instr.payload, List.length_replicate]
  omega

/-! ## Decoding: every row's word as R79, R80 and R82 write it -/

theorem test_decode_crcInit : decode ⟨0x00000001, [], []⟩ = .ok .crcInit := by decide
theorem test_decode_crcUpdate : decode ⟨0x00000002, [], [0x31]⟩ = .ok (.crcUpdate [0x31]) := by decide
theorem test_decode_crcFinal : decode ⟨0x00000003, [], []⟩ = .ok .crcFinal := by decide
theorem test_decode_crcOneshot : decode ⟨0x00000004, [], [0xFF]⟩ = .ok (.crcOneshot [0xFF]) := by decide
/-- OPS[2] carries options in 31:16 and topic_len in 15:0 (R81). -/
theorem test_decode_hdrEncode : decode ⟨0x00000010, [0x01020304, 0x05060708, 0x090A0B0C, 0x0D0E0F10], []⟩ =
    .ok (.hdrEncode 0x01020304 0x05060708 0x090A 0x0B0C 0x0D0E0F10) := by decide
theorem test_decode_hdrDecode : decode ⟨0x00000011, [], []⟩ = .ok .hdrDecode := by decide
theorem test_decode_msgType : decode ⟨0x00000012, [], []⟩ = .ok .msgType := by decide
theorem test_decode_frameParse : decode ⟨0x00000013, [], []⟩ = .ok .frameParse := by decide
theorem test_decode_verify : decode ⟨0x00000014, [], []⟩ = .ok .verify := by decide
theorem test_decode_rxLoad : decode ⟨0x00000015, [], [0xAA]⟩ = .ok (.rxLoad [0xAA]) := by decide
theorem test_decode_bldReset : decode ⟨0x00000020, [], []⟩ = .ok .bldReset := by decide
theorem test_decode_setTopic : decode ⟨0x00000021, [], []⟩ = .ok (.setTopic []) := by decide
theorem test_decode_writeRaw : decode ⟨0x00000022, [], [0x7A]⟩ = .ok (.writeRaw [0x7A]) := by decide
theorem test_decode_writeVia : decode ⟨0x00000023, [7], []⟩ = .ok (.writeVia 7) := by decide
/-- ARG is the kind, and any kind decodes (L3, P3 step 7). -/
theorem test_decode_finalize : decode ⟨0x00000724, [], []⟩ = .ok (.finalize 7) := by decide
theorem test_decode_asFrame : decode ⟨0x00000025, [], []⟩ = .ok .asFrame := by decide
theorem test_decode_getStatus : decode ⟨0x00000030, [], []⟩ = .ok .getStatus := by decide

/-- The ill-formed commands of L2.9 and L2.2, and why each is (R83). -/
theorem test_decode_ill_formed :
    [(0x00000000, [], []), (0x00000005, [], []), (0x00000031, [], []), (0x000000FF, [], []), (0x00010020, [], []),
      (0x00000120, [], []), (0x00000130, [], []), (0x00000023, [], []), (0x00000010, [1, 2, 3], []),
      (0x00000030, [], [0x78]), (0x00000001, [], [0x78])].map
      (fun c : Word × List Word × List Byte => Command.illFormed ⟨c.1, c.2.1, c.2.2⟩) =
    [some .reservedOpcode, some .reservedOpcode, some .reservedOpcode, some .reservedOpcode, some .reservedBits,
      some .argument, some .argument, some .operandCount, some .operandCount, some .unexpectedData,
      some .unexpectedData] := by decide

/-- The table's numbering, the model's choice (log 13): W0 in the low 32 bits, operand words above it; bits above nbits are 0. -/
theorem test_decodeTableWord :
    decodeTableWord 64 0x0000000700000023 = some (.writeVia 7) ∧ decodeTableWord 32 0x00000023 = some (.writeVia 0) ∧
    decodeTableWord 32 0x00000224 = some (.finalize 2) := by decide

/-- The lines of L3, P1 to P7 (R89). -/
theorem test_assembler :
    asmText "FINALIZE PUSH".toList = some ⟨0x00000124, [], []⟩ ∧
    asmText "FINALIZE 7".toList = some ⟨0x00000724, [], []⟩ ∧
    asmText "WRITE_VIA 7".toList = some ⟨0x00000023, [7], []⟩ ∧
    asmText "SET_TOPIC \"ab\"".toList = some ⟨0x00000021, [], [0x61, 0x62]⟩ ∧
    asmText "WRITE_RAW []".toList = some ⟨0x00000022, [], []⟩ ∧
    asmText "CRC_ONESHOT [0xFF, 0x00]".toList = some ⟨0x00000004, [], [0xFF, 0x00]⟩ ∧
    asmText "AS_FRAME".toList = some ⟨0x00000025, [], []⟩ ∧
    asmText "HDR_ENCODE 1, 2, 3, 4, 5".toList = some ⟨0x00000010, [1, 2, 0x00030004, 5], []⟩ ∧
    asmText "BUILD".toList = none := by decide +kernel

/-! ## Functions -/

/-- L2.1: crc32 of one byte, of "abc", and of no byte. -/
theorem test_crc32 : crc32 [0x00] = 0xD202EF8D ∧ crc32 [0x61, 0x62, 0x63] = 0x352441C2 ∧ crc32 [] = 0 := by decide +kernel

/-- L2.1: one step, with the last of 8 iterations the only one that XORs. -/
theorem test_crcStep : crcStep 0 0x80 = 0xEDB88320 ∧ crcStep 0x12345678 0xAB = 0x1FC8B738 := by decide +kernel

/-! ## Instructions, at most two tests each -/

theorem test_crcInit : (nextOf (exec .crcInit { fresh with crc := 0 })).map State.crc = some 0xFFFFFFFF := by decide +kernel

/-- L2.2. -/
theorem test_crcUpdate : (nextOf (exec (.crcUpdate [0x31]) fresh)).map State.crc = some 0x7C231048 := by decide +kernel

/-- L2.2: with no data CRC is unchanged. -/
theorem test_crcUpdate_empty : (nextOf (exec (.crcUpdate []) { fresh with crc := 5 })).map State.crc = some 5 := by
  decide +kernel

/-- L2.2: the value is complemented, CRC is not. -/
theorem test_crcFinal :
    (nextOf (exec .crcFinal { fresh with crc := 0x340BC6D9 })).map (fun t => (t.crc, t.resp)) =
      some (0x340BC6D9, some ⟨.ok, [0xCBF43926], []⟩) := by decide +kernel

/-- L2.2: CRC is untouched. -/
theorem test_crcOneshot :
    (nextOf (exec (.crcOneshot [0x61, 0x62, 0x63]) { fresh with crc := 0x641C1F5C })).map (fun t => (t.crc, t.resp)) =
      some (0x641C1F5C, some ⟨.ok, [0x352441C2], []⟩) := by decide +kernel

/-- L2.3. -/
theorem test_hdrEncode :
    respOf (.hdrEncode 0xDEADBEEF 0x0B5385CA 1 4 0) fresh =
      some ⟨.ok, [], [0xDE, 0xAD, 0xBE, 0xEF, 0x0B, 0x53, 0x85, 0xCA, 0, 1, 0, 4, 0, 0, 0, 0]⟩ := by decide +kernel

/-- L2.3: F1 after a parse; FRAME_VALID is cleared. -/
theorem test_hdrDecode :
    (nextOf (exec .hdrDecode parsed)).map (fun t => (t.hdrValid, t.frameValid, t.resp)) =
      some (true, false, some ⟨.ok, [0xDEADBEEF, 0x7B9ABF43, 0x00010004, 8], []⟩) := by decide +kernel

/-- L2.3: 15 bytes. -/
theorem test_hdrDecode_short :
    (nextOf (exec .hdrDecode { parsed with rxLen := 15 })).map (fun t => (t.hdrValid, t.hChecksum, t.resp)) =
      some (false, 0x7B9ABF43, some ⟨.truncatedHeader, [], []⟩) := by decide +kernel

/-- L2.5, RXLEN = 18: the topic is cut, the payload is empty. -/
theorem test_frameParse_cut :
    respOf .frameParse (loaded (f1.take 18)) =
      some ⟨.truncatedFrame, [0xDEADBEEF, 0x7B9ABF43, 0x00010004, 8, 16, 2, 18, 0], []⟩ := by decide +kernel

/-- L2.5, the wrap trap: 16 + 0xFFFF + 0xFFFF0001 is 16 modulo 2^32, and the frame is still truncated. -/
theorem test_frameParse_wrap :
    respOf .frameParse
      (loaded [0xDE, 0xAD, 0xBE, 0xEF, 0, 0, 0, 0, 0, 1, 0xFF, 0xFF, 0xFF, 0xFF, 0, 1]) =
      some ⟨.truncatedFrame, [0xDEADBEEF, 0, 0x0001FFFF, 0xFFFF0001, 16, 0, 16, 0], []⟩ := by decide +kernel

/-- L2.6, KIND_MASK = 0x0003: options 0x0005 are PUSH. -/
theorem test_msgType : respOf .msgType { parsed with hOptions := 0x0005 } = some ⟨.ok, [1], []⟩ := by decide +kernel

/-- L2.6, KIND_MASK = 0x00FF: options 0x0004 are unknown, and the value is the masked one. -/
theorem test_msgType_unknown :
    respOf .msgType { parsed with hOptions := 0x0104, params := { inst 64 64 with kindMaskHigh := 0x3F } } =
      some ⟨.unknownMessageKind, [4], []⟩ := by decide +kernel

/-- L2.7, F1. -/
theorem test_verify : respOf .verify parsed = some ⟨.ok, [0x7B9ABF43], []⟩ := by decide +kernel

/-- L2.7, F1c: the computed checksum first, then the stored one. -/
theorem test_verify_mismatch :
    respOf .verify { parsed with rx := Memory.write parsed.rx 27 0x7E } =
      some ⟨.checksumMismatch, [0xE293EEF9, 0x7B9ABF43], []⟩ := by decide +kernel

/-- L2.4: 64 bytes fit 64, and the valid bits are cleared. -/
theorem test_rxLoad :
    (nextOf (exec (.rxLoad (List.replicate 64 0xAA)) parsed)).map
      (fun t => (t.rxLen, t.hdrValid, t.frameValid, t.readByte .rx 63)) = some (64, false, false, some 0xAA) := by
  decide +kernel

/-- L2.4: one byte too many, and nothing but ERR changes. -/
theorem test_rxLoad_over :
    nextOf (exec (.rxLoad (List.replicate 65 0xAA)) parsed) =
      some { parsed with err := .bufferOverrun, resp := some ⟨.bufferOverrun, [], []⟩ } := by decide +kernel

theorem test_bldReset :
    (nextOf (exec .bldReset inFinal)).map (fun t => (t.phase, t.cur, t.frameLen, t.tx)) =
      some (.empty, 16, 0, inFinal.tx) := by decide +kernel

/-- L2.8. -/
theorem test_setTopic :
    (nextOf (exec (.setTopic [0x74, 0x65, 0x6D, 0x70]) fresh)).map
      (fun t => (t.phase, t.cur, t.bTopicLen, t.readByte .tx 19)) = some (.topic, 20, 4, some 0x70) := by decide +kernel

/-- L2.8: even an empty topic does not fit 15 bytes. -/
theorem test_setTopic_over :
    respOf (.setTopic []) (State.resetOf (inst 15 64)) = some ⟨.capacityExceeded, [], []⟩ := by decide +kernel

/-- R182: the last byte that fits. -/
theorem test_writeRaw :
    (nextOf (exec (.writeRaw [0x62]) inTopic)).map (fun t => (t.phase, t.cur, t.bDataLen, t.tx)) =
      some (.data, 18, 1, inData.tx) := by decide +kernel

/-- R182, R173: one byte too many. -/
theorem test_writeRaw_over : respOf (.writeRaw [0x62, 0x63]) inTopic = some ⟨.capacityExceeded, [], []⟩ := by decide +kernel

/-- L3, P6 step 5, here with REM = 1. -/
theorem test_writeVia :
    (nextOf (exec (.writeVia 7) { inTopic with serAnswers := [.wrote [0x62]] })).map
      (fun t => (t.phase, t.tx, t.serRequest, t.resp)) =
      some (.data, inData.tx, some ⟨7, 1⟩, some ⟨.ok, [1], []⟩) := by decide +kernel

/-- R187: a serializer that never answers leaves the block stuck. -/
theorem test_writeVia_silent : isStuck (exec (.writeVia 7) inTopic) = true := by decide +kernel

/-- R191: the header goes below the topic and the payload. -/
theorem test_finalize :
    (nextOf (exec (.finalize 1) inData)).map (fun t => (t.phase, t.frameLen, t.tx, t.resp)) =
      some (.finalized, 18, inFinal.tx, some ⟨.ok, [18], []⟩) := by decide +kernel

/-- L2.8: kind 3. -/
theorem test_finalize_kind :
    nextOf (exec (.finalize 3) inData) =
      some { inData with err := .unknownMessageKind, resp := some ⟨.unknownMessageKind, [], []⟩ } := by decide +kernel

theorem test_asFrame : respOf .asFrame inFinal = some ⟨.ok, [18], frameAB⟩ := by decide +kernel

/-- R173: a frame that is not finalized is not handed out. -/
theorem test_asFrame_early : respOf .asFrame inData = some ⟨.sequenceError, [], []⟩ := by decide +kernel

/-- L3, P2 step 9: ERR is not written. -/
theorem test_getStatus :
    (nextOf (exec .getStatus { cut with err := .truncatedFrame })).map (fun t => (t.err, t.resp)) =
      some (.truncatedFrame, some ⟨.ok, [0x000001C2, 16, 22, 0], []⟩) := by decide +kernel

/-! ## The step -/

/-- L2.9: an ill-formed word at the port. -/
theorem test_step_ill_formed :
    nextOf (step (fresh.issue ⟨0x00000005, [], []⟩)) =
      some { fresh with err := .illegalCommand, resp := some ⟨.illegalCommand, [], []⟩ } := by decide +kernel

/-- The word a table row gives runs as the first instruction after reset, on every instance. -/
theorem test_step_fetch (p : Params) :
    step ((State.resetOf p).withFetchWord 32 0x00000124) = exec (.finalize 1) (State.resetOf p) := by rfl

/-- With nothing at the port the block holds its state (R236). -/
theorem test_step_idle : nextOf (step parsed) = some parsed := by decide +kernel

/-! ## Witnesses: the hypotheses of each statement can be met -/

/-- A state of the invariant with a complete, intact frame parsed. -/
theorem test_inv_parsed : Inv parsed where
  memory := ⟨by decide, by decide, by decide, by decide⟩
  builder := ⟨by decide, by decide, by decide, (fun h => nomatch h), fun h => absurd rfl h⟩
  decoder :=
    { rxLenFits := by decide, frameHasHeader := by decide, truncHasFrame := by decide, views := by decide
      header := fun _ => ⟨by decide, f1.take 16, by decide, by decide⟩
      written := by
        intro a _ (h : a < 28)
        interval_cases a <;> rfl }

/-- A state of the invariant with a truncated frame parsed. -/
theorem test_inv_cut : Inv cut where
  memory := ⟨by decide, by decide, by decide, by decide⟩
  builder := ⟨by decide, by decide, by decide, (fun h => nomatch h), fun h => absurd rfl h⟩
  decoder :=
    { rxLenFits := by decide, frameHasHeader := by decide, truncHasFrame := by decide, views := by decide
      header := fun _ => ⟨by decide, f1.take 16, by decide, by decide⟩
      written := by
        intro a _ (h : a < 22)
        interval_cases a <;> rfl }

/-- A state of the invariant with the builder in TOPIC. -/
theorem test_inv_inTopic : Inv inTopic where
  memory := ⟨by decide, by decide, by decide, by decide⟩
  builder :=
    { empty := by decide, topic := by decide, data := by decide, finalized := fun h => nomatch h
      written := by
        intro _ a (h1 : 16 ≤ a) (h2 : a < 17)
        interval_cases a
        rfl }
  decoder :=
    { rxLenFits := by decide, frameHasHeader := by decide, truncHasFrame := by decide, views := by decide
      header := fun h => nomatch h
      written := by
        intro a _ (h : a < 0)
        omega }

/-- A state of the invariant with a finalized frame. -/
theorem test_inv_inFinal : Inv inFinal where
  memory := ⟨by decide, by decide, by decide, by decide⟩
  builder :=
    { empty := by decide, topic := by decide, data := by decide
      finalized := fun _ => ⟨rfl, by decide, by decide, 1, [0x61, 0x62], by decide, by decide, by decide +kernel⟩
      written := by
        intro _ a (h1 : 16 ≤ a) (h2 : a < 18)
        interval_cases a <;> rfl }
  decoder :=
    { rxLenFits := by decide, frameHasHeader := by decide, truncHasFrame := by decide, views := by decide
      header := fun h => nomatch h
      written := by
        intro a _ (h : a < 0)
        omega }

/-- The bytes of a memory as a test reads them. -/
theorem test_holds_f1 : Holds parsed .rx 0 (f1.take 16) ∧ Holds parsed .rx 16 (f1.drop 16) := by
  constructor
  · intro j (hj : j < 16)
    interval_cases j <;> rfl
  · intro j (hj : j < 12)
    interval_cases j <;> rfl

theorem test_holds_frameAB : Holds inFinal .tx 0 frameAB ∧ Holds inData .tx 16 [0x61, 0x62] := by
  constructor
  · intro j (hj : j < 18)
    interval_cases j <;> rfl
  · intro j (hj : j < 2)
    interval_cases j <;> rfl

theorem test_witness_EncodeOfDecodeIsTheCommand : decode ⟨0x0000FF24, [], []⟩ = .ok (.finalize 0xFF) := by decide

/-- FINALIZE's row with ARG at its largest value; another row with ARG 0. -/
theorem test_witness_TableRowMatchesExactlyItsWords :
    (0x0000FF24#32 &&& Op.finalize.tableMask) = Op.finalize.tableMatch ∧
    (0x00000030#32 &&& Op.getStatus.tableMask) = Op.getStatus.tableMatch := by decide

/-- A command at the port: one for each ground (a) to (e) of R83, and one that is well-formed. -/
theorem test_witness_IllFormedCommandOnlySetsErr :
    (∀ c : Command, (fresh.issue c).inbox = .command c :: []) ∧
    (∀ op : Op, op.code ≠ (0x00000031#32).extractLsb' 0 8) ∧
    (0x00010020#32).extractLsb' 16 16 ≠ 0#16 ∧
    ((0x00000130#32).extractLsb' 8 8 ≠ 0#8 ∧ Op.getStatus ≠ .finalize) ∧
    (([] : List Word).length ≠ Op.writeVia.operandWords) ∧
    (([0x78] : List Byte) ≠ [] ∧ Op.getStatus.takesData = false) ∧
    decode ⟨0x00000030, [], []⟩ = .ok .getStatus := by
  refine ⟨fun _ => rfl, fun op => ?_, by decide, by decide, by decide, by decide, by decide⟩
  cases op <;> decide

theorem test_witness_StepRunsTheDecodedInstruction :
    (fresh.issue ⟨0x00000030, [], []⟩).inbox = [.command ⟨0x00000030, [], []⟩] ∧
    decode ⟨0x00000030, [], []⟩ = .ok .getStatus := by decide

theorem test_witness_ResetEventRestoresEveryRegister :
    ({ parsed with inbox := [.reset] } : State).inbox = [.reset] := by decide

theorem test_witness_ParametersNeverChange : (nextOf (step (parsed.issue ⟨0x00000014, [], []⟩))).isSome = true := by
  decide +kernel

/-- A GET_STATUS and another command. -/
theorem test_witness_ErrHoldsTheStatusReturned :
    (nextOf (step (parsed.issue ⟨0x00000030, [], []⟩))).isSome = true ∧ decode ⟨0x00000030, [], []⟩ = .ok .getStatus ∧
    (nextOf (step (parsed.issue ⟨0x00000130, [], []⟩))).isSome = true ∧ decode ⟨0x00000130, [], []⟩ ≠ .ok .getStatus := by
  decide +kernel

theorem test_witness_HeaderFieldsAreBitsOfOneBigEndianNumber : (f1.take 16).length = 16 := by decide

theorem test_witness_HeaderCodecRoundTrip : 16 ≤ (f1.take 16).length ∧ 16 ≤ f1.length := by decide

theorem test_witness_CursorReadsTheHeaderExactly : 16 ≤ (f1.take 16).length ∧ ¬16 ≤ (f1.take 15).length := by decide

theorem test_witness_MemReadAnswersTheBytes : parsed.memRead .rx 26 2 = .ok [0x31, 0x7D] := by rfl

/-- The last byte of the space, and an empty write at its end. -/
theorem test_witness_MemWriteWritesExactlyItsRange :
    63 + ([0xAA] : List Byte).length ≤ fresh.size .tx ∧ 64 + ([] : List Byte).length ≤ fresh.size .tx := by decide

/-- An ill-formed command for each ground (b) to (e). -/
theorem test_witness_IllFormedRejected :
    (fresh.issue ⟨0x00010020, [], []⟩).inbox = [.command ⟨0x00010020, [], []⟩] ∧
    (0x00010020#32).extractLsb' 0 8 = 0x20#8 ∧ (0x00010020#32).extractLsb' 16 16 ≠ 0#16 ∧
    (0x00000120#32).extractLsb' 0 8 = 0x20#8 ∧ (0x00000120#32).extractLsb' 8 8 ≠ 0#8 ∧
    ([1, 2, 3] : List Word).length ≠ 4 ∧ ([0x78] : List Byte) ≠ [] := by decide

/-- 15 bytes and 16 bytes. -/
theorem test_witness_HdrDecodeRule :
    (loaded (f1.take 15)).rxLen.toNat < 16 ∧ 16 ≤ (loaded (f1.take 16)).rxLen.toNat ∧
    16 ≤ (loaded (f1.take 16)).size .rx ∧ (f1.take 16).length = 16 ∧ Holds (loaded (f1.take 16)) .rx 0 (f1.take 16) := by
  refine ⟨by decide, by decide, by decide, by decide, ?_⟩
  intro j (hj : j < 16)
  interval_cases j <;> rfl

/-- One byte over RXCAP, and exactly RXCAP. -/
theorem test_witness_RxLoadRule :
    fresh.params.rxcap.toNat < (List.replicate 65 (0 : Byte)).length ∧
    ¬fresh.params.rxcap.toNat < (List.replicate 64 (0 : Byte)).length := by decide

/-- 15 bytes, a cut frame, and a complete one. -/
theorem test_witness_FrameParseRule :
    (loaded (f1.take 15)).rxLen.toNat < 16 ∧ 16 ≤ cut.rxLen.toNat ∧ 16 ≤ parsed.rxLen.toNat ∧ 16 ≤ parsed.size .rx ∧
    Holds parsed .rx 0 (f1.take 16) ∧ Holds cut .rx 0 (f1.take 16) := by
  refine ⟨by decide, by decide, by decide, by decide, test_holds_f1.1, ?_⟩
  intro j (hj : j < 16)
  interval_cases j <;> rfl

/-- No header, a known kind of each sort, and an unknown one at each side of them. -/
theorem test_witness_MsgTypeRule :
    fresh.hdrValid = false ∧ parsed.hdrValid = true ∧ parsed.hOptions &&& parsed.params.kindMask = 1 ∧
    (2 : Half) &&& parsed.params.kindMask = 2 ∧ (0 : Half) &&& parsed.params.kindMask = 0 ∧
    (3 : Half) &&& parsed.params.kindMask = 3 := by decide

/-- The parsed F1 with views that are not of the declared lengths: a state outside R41. -/
def misviewed : State := { parsed with vTopicLen := 3, vPayloadOff := 19, vPayloadLen := 2 }

/-- No frame, another magic, a cut frame, an intact frame, and one whose checksum field is wrong. -/
theorem test_witness_VerifyRule :
    fresh.frameValid = false ∧
    (let s := { parsed with hMagic := 0xDEADBEEE }
     s.frameValid = true ∧ s.hMagic ≠ s.params.magic) ∧
    (cut.frameValid = true ∧ cut.hMagic = cut.params.magic ∧ cut.trunc = true) ∧
    (parsed.frameValid = true ∧ parsed.hMagic = parsed.params.magic ∧ parsed.trunc = false ∧
      (f1.drop 16).length = parsed.hTopicLen.toNat + parsed.hDataLen.toNat ∧
      16 + (f1.drop 16).length ≤ parsed.size .rx ∧ Holds parsed .rx 16 (f1.drop 16)) ∧
    (parsed.vTopicOff.toNat = 16 ∧ parsed.vPayloadOff.toNat = 16 + parsed.vTopicLen.toNat ∧
      parsed.vTopicLen.toNat = parsed.hTopicLen.toNat ∧ parsed.vPayloadLen.toNat = parsed.hDataLen.toNat) ∧
    crc32 (f1.drop 16) = parsed.hChecksum ∧ crc32 (f1.drop 16) ≠ ({ parsed with hChecksum := 0 } : State).hChecksum :=
  ⟨by decide, by decide, by decide, ⟨by decide, by decide, by decide, by decide, by decide, test_holds_f1.2⟩,
    by decide, by decide +kernel, by decide +kernel⟩

/-- Views that are not of the declared lengths, each inside RX, over another range than the header's lengths give. -/
theorem test_witness_VerifyRule_views :
    (misviewed.frameValid = true ∧ misviewed.hMagic = misviewed.params.magic ∧ misviewed.trunc = false ∧
      ¬ misviewed.viewsDeclared) ∧
    ((f1.drop 16).length = misviewed.hTopicLen.toNat + misviewed.hDataLen.toNat ∧
      16 + (f1.drop 16).length ≤ misviewed.size .rx ∧ Holds misviewed .rx 16 (f1.drop 16)) ∧
    ([0x74, 0x65, 0x6D] : List Byte).length = misviewed.vTopicLen.toNat ∧
    ([0x70, 0x7B] : List Byte).length = misviewed.vPayloadLen.toNat ∧
    (misviewed.vTopicOff.toNat + 3 ≤ misviewed.size .rx ∧ misviewed.vPayloadOff.toNat + 2 ≤ misviewed.size .rx) ∧
    Holds misviewed .rx misviewed.vTopicOff.toNat [0x74, 0x65, 0x6D] ∧
    Holds misviewed .rx misviewed.vPayloadOff.toNat [0x70, 0x7B] := by
  refine ⟨by decide, ⟨by decide, by decide, test_holds_f1.2⟩, by decide, by decide, by decide, ?_, ?_⟩
  · intro j (hj : j < 3)
    interval_cases j <;> rfl
  · intro j (hj : j < 2)
    interval_cases j <;> rfl

/-- A complete parse, a cut payload, and a cut topic. -/
theorem test_witness_ParsedViewsTileTheAvailableBytes :
    [loaded f1, loaded (f1.take 22), loaded (f1.take 18)].map
      (fun s => (nextOf (exec .frameParse s)).map fun t => (t.frameValid, t.trunc, decide (t.vTopicLen.toNat < 4))) =
    [some (true, false, false), some (true, true, false), some (true, true, true)] := by decide +kernel

theorem test_witness_KindsHoldForEveryLegalMask : (0 : Half).toNat ≤ 3 ∧ (3 : Half).toNat ≤ 3 := by decide

theorem test_witness_VerifyOkIffFrameIsIntact :
    (Inv parsed ∧ parsed.frameValid = true) ∧ (Inv cut ∧ cut.frameValid = true) :=
  ⟨⟨test_inv_parsed, rfl⟩, ⟨test_inv_cut, rfl⟩⟩

/-- RX changed at the first byte that is not loaded. -/
theorem test_witness_DecoderReadsOnlyLoadedBytes :
    DecoderInv parsed ∧ (∀ a, a < parsed.rxLen.toNat → (parsed.rx.write 28 0xAA).read a = parsed.rx.read a) ∧
    (parsed.rx.write 28 0xAA) ≠ parsed.rx := by
  refine ⟨test_inv_parsed.decoder, ?_, by decide⟩
  intro a (ha : a < 28)
  interval_cases a <;> rfl

/-- Out of order; one byte over the capacity of 18; the last byte that fits; and the two sides of the 16-bit length. -/
theorem test_witness_SetTopicRule :
    inTopic.phase ≠ .empty ∧ (State.resetOf (inst 18 64)).phase = .empty ∧
    (inst 18 64).capacity.toNat < 16 + ([1, 2, 3] : List Byte).length ∧
    ¬(0xFFFF < ([1, 2] : List Byte).length ∨ (inst 18 64).capacity.toNat < 16 + ([1, 2] : List Byte).length) ∧
    0xFFFF < (List.replicate 0x10000 (0 : Byte)).length ∧ ¬0xFFFF < (List.replicate 0xFFFF (0 : Byte)).length := by
  refine ⟨by decide, by decide, by decide, by decide, ?_, ?_⟩ <;> rw [List.length_replicate] <;> decide

/-- Out of order; one byte over the capacity; the last byte that fits. -/
theorem test_witness_WriteRawRule :
    inData.phase ≠ .topic ∧ inTopic.phase = .topic ∧
    inTopic.params.capacity.toNat < inTopic.cur.toNat + ([1, 2] : List Byte).length ∧
    ¬inTopic.params.capacity.toNat < inTopic.cur.toNat + ([1] : List Byte).length := by decide

/-- Out of order; no serializer; a silent one; each of its answers, with bytes that fit exactly and with one too many. -/
theorem test_witness_WriteViaRule :
    inData.phase ≠ .topic ∧ inTopic.phase = .topic ∧ ({ inst 18 64 with hasSerializer := false } : Params).hasSerializer = false ∧
    inTopic.params.hasSerializer = true ∧ inTopic.serAnswers = [] ∧
    ({ inTopic with serAnswers := [.noFit, .unrepresentable, .wrote [1], .wrote [1, 2]] } : State).phase = .topic ∧
    ¬inTopic.params.capacity.toNat < inTopic.cur.toNat + ([1] : List Byte).length ∧
    inTopic.params.capacity.toNat < inTopic.cur.toNat + ([1, 2] : List Byte).length := by decide

/-- Out of order; kinds 0 and 3; kinds 1 and 2, with the frame's body in TX. -/
theorem test_witness_FinalizeRule :
    inTopic.phase ≠ .data ∧ inData.phase = .data ∧ ((0 : Byte) ≠ 1 ∧ (0 : Byte) ≠ 2) ∧ ((3 : Byte) ≠ 1 ∧ (3 : Byte) ≠ 2) ∧
    ¬((1 : Byte) ≠ 1 ∧ (1 : Byte) ≠ 2) ∧ ¬((2 : Byte) ≠ 1 ∧ (2 : Byte) ≠ 2) ∧
    16 + ([0x61, 0x62] : List Byte).length = inData.cur.toNat ∧ inData.cur.toNat ≤ inData.size .tx ∧
    Holds inData .tx 16 [0x61, 0x62] :=
  ⟨by decide, by decide, by decide, by decide, by decide, by decide, by decide, by decide, test_holds_frameAB.2⟩

theorem test_witness_AsFrameRule :
    inData.phase ≠ .finalized ∧ inFinal.phase = .finalized ∧ frameAB.length = inFinal.frameLen.toNat ∧
    frameAB.length ≤ inFinal.size .tx ∧ Holds inFinal .tx 0 frameAB ∧
    Instr.verify ≠ .asFrame ∧ (respOf .verify parsed).isSome = true :=
  ⟨by decide, by decide, by decide, by decide, test_holds_frameAB.1, by decide, by decide +kernel⟩

/-- A cell that succeeds, a cell SEQ, and a command that is not OK. -/
theorem test_witness_PhaseFollowsTheTransitionTable :
    (Instr.finalize 1).op ∈ builderOps ∧
    [(.finalize 1, inData), (.finalize 1, inTopic), (.finalize 3, inData)].map
      (fun x : Instr × State => (respOf x.1 x.2).map Response.status) =
    [some .ok, some .sequenceError, some .unknownMessageKind] := by decide +kernel

theorem test_witness_OutOfOrderCommandOnlySetsErr :
    Instr.asFrame.op ∈ builderOps ∧ nextPhase Instr.asFrame.op inData.phase = none := by decide

/-- A payload that fits exactly. -/
theorem test_witness_SerializerPayloadEqualsRawPayload :
    let s := { inTopic with serAnswers := [.wrote [0x62]] }
    s.params.hasSerializer = true ∧ s.serAnswers = .wrote [0x62] :: [] ∧ (nextOf (exec (.writeVia 7) s)).isSome = true := by
  decide +kernel

theorem test_witness_FinalizedFrameIsConsistent : Inv inFinal ∧ inFinal.phase = .finalized := ⟨test_inv_inFinal, rfl⟩

/-- A frame that fills both buffers, and the empty frame in 16 bytes. -/
theorem test_witness_BuiltFrameParsesVerifiesAndClassifies :
    ([0x61] : List Byte).length ≤ 0xFFFF ∧
    16 + ([0x61] : List Byte).length + ([0x62] : List Byte).length ≤ (State.resetOf (inst 18 18)).params.capacity.toNat ∧
    16 + ([0x61] : List Byte).length + ([0x62] : List Byte).length ≤ (State.resetOf (inst 18 18)).params.rxcap.toNat ∧
    16 + ([] : List Byte).length + ([] : List Byte).length ≤ (State.resetOf (inst 16 16)).params.capacity.toNat ∧
    16 + ([] : List Byte).length + ([] : List Byte).length ≤ (State.resetOf (inst 16 16)).params.rxcap.toNat ∧
    ((1 : Byte) = 1 ∨ (1 : Byte) = 2) ∧ ((2 : Byte) = 1 ∨ (2 : Byte) = 2) := by decide

theorem test_witness_BuildReturnsExactlyTheFrame :
    ([0x61] : List Byte).length ≤ 0xFFFF ∧
    16 + ([0x61] : List Byte).length + ([0x62] : List Byte).length ≤ inFinal.params.capacity.toNat ∧
    ((1 : Byte) = 1 ∨ (1 : Byte) = 2) := by decide

theorem test_witness_AnswersOnlyCataloguedStatuses : (nextOf (exec .verify cut)).isSome = true := by decide +kernel

theorem test_witness_ChecksumAndStatusCommandsFrame :
    (Instr.crcUpdate [0x31]).op ∈ [Op.crcInit, .crcUpdate, .crcFinal, .crcOneshot, .getStatus] ∧
    (nextOf (exec (.crcUpdate [0x31]) parsed)).isSome = true ∧ (nextOf (exec .getStatus parsed)).isSome = true := by
  decide +kernel

theorem test_witness_DecoderCommandsFrame :
    Instr.frameParse.op ∈ Op.hdrEncode :: decoderOps ∧ (nextOf (exec .frameParse parsed)).isSome = true ∧
    (Instr.rxLoad f1).op ∈ Op.hdrEncode :: decoderOps ∧ (nextOf (exec (.rxLoad f1) inFinal)).isSome = true := by
  decide +kernel

theorem test_witness_BuilderCommandsFrame :
    (Instr.writeRaw [0x62]).op ∈ builderOps ∧ (nextOf (exec (.writeRaw [0x62]) inTopic)).isSome = true ∧
    (Instr.writeVia 7).op ∈ builderOps ∧
    (nextOf (exec (.writeVia 7) { inTopic with serAnswers := [.noFit] })).isSome = true := by decide +kernel

/-- A rejection with no exception, and one for each of the exceptions (a), (b) and (c) of R223. -/
theorem test_witness_RejectedCommandOnlySetsErr :
    [(.verify, cut), (.hdrDecode, { parsed with rxLen := 15 }), (.writeVia 7, { inTopic with serAnswers := [.noFit] }),
      (.msgType, { parsed with hOptions := 3 })].map
      (fun x : Instr × State => (respOf x.1 x.2).map fun r => (r, statusClass x.1.op r.status)) =
    [some (⟨.truncatedFrame, [], []⟩, .rejected), some (⟨.truncatedHeader, [], []⟩, .rejected),
      some (⟨.capacityExceeded, [], []⟩, .rejected), some (⟨.unknownMessageKind, [3], []⟩, .rejected)] := by decide +kernel

theorem test_witness_ReissueChangesNothing :
    Instr.frameParse.op ∈ [Op.crcFinal, .crcOneshot, .hdrEncode, .msgType, .verify, .asFrame, .getStatus, .hdrDecode,
      .frameParse] ∧ (nextOf (exec .frameParse parsed)).isSome = true := by decide +kernel

/-- Two states with the same decoder and different builders. -/
theorem test_witness_DecoderIsIndependentOfTheRest :
    Instr.verify.op ∈ decoderOps ∧ SameDecoder parsed { parsed with phase := .topic, cur := 17, crc := 0, tx := [(16, 0x61)] } :=
  ⟨by decide, rfl, rfl, rfl, rfl, rfl, rfl, rfl, rfl⟩

/-- Two states with the same builder and different decoders. -/
theorem test_witness_BuilderIsIndependentOfTheRest :
    (Instr.finalize 1).op ∈ builderOps ∧ SameBuilder inData { inData with rxLen := 1, crc := 0, rx := [(0, 0xAA)] } :=
  ⟨by decide, rfl, rfl, rfl, rfl, rfl, rfl, rfl, rfl⟩

/-- A step of a state of the invariant that runs a command, and one that is idle. -/
theorem test_witness_StepKeepsTheInvariant :
    Inv parsed ∧ (nextOf (step parsed)).isSome = true ∧
    Inv (parsed.issue ⟨0x00000014, [], []⟩) ∧ (nextOf (step (parsed.issue ⟨0x00000014, [], []⟩))).isSome = true :=
  ⟨test_inv_parsed, by decide +kernel,
    ⟨⟨test_inv_parsed.memory.1, test_inv_parsed.memory.2, test_inv_parsed.memory.3, test_inv_parsed.memory.4⟩,
      ⟨test_inv_parsed.builder.1, test_inv_parsed.builder.2, test_inv_parsed.builder.3,
      test_inv_parsed.builder.4, test_inv_parsed.builder.5⟩, ⟨test_inv_parsed.decoder.1, test_inv_parsed.decoder.2,
      test_inv_parsed.decoder.3, test_inv_parsed.decoder.4, test_inv_parsed.decoder.5, test_inv_parsed.decoder.6⟩⟩,
    by decide +kernel⟩

/-- The one state that waits, and one that does not. -/
theorem test_witness_OnlyASilentSerializerStops :
    Inv parsed ∧
    (∃ v rest, (inTopic.issue (encode (.writeVia 7))).inbox = .command (encode (.writeVia v)) :: rest) ∧
    inTopic.phase = .topic ∧ inTopic.params.hasSerializer = true ∧ inTopic.serAnswers = [] ∧ Inv inTopic :=
  ⟨test_inv_parsed, ⟨7, [], rfl⟩, rfl, rfl, rfl, test_inv_inTopic⟩

/-- FRAME_PARSE answers TRUNCATED_FRAME on a cut frame, and OK on a complete one; MSG_TYPE without a header is an error. -/
theorem test_witness_MacroStopsAtTheFirstError :
    [(.frameParse, cut), (.frameParse, parsed), (.msgType, fresh)].map
      (fun x : Instr × State => (respOf x.1 x.2).map Response.status) =
    [some .truncatedFrame, some .ok, some .sequenceError] := by decide +kernel

end Sys2Proof.Tests
end

/-!
The kind of a message under an instance's KIND_MASK (42_frame_decode.md R151, R152): what the obligation about the legal
masks needs of `Params.kindMask` and `kindOf`.
-/
namespace Sys2Proof

/-- Every instance's KIND_MASK is legal (R6). -/
@[simp] theorem Params.kindMask_and_three (p : Params) : p.kindMask &&& 3 = 3 := by
  have hthree : (3 : Half) = 0#14 ++ 3#2 := rfl
  rw [Params.kindMask, hthree, BitVec.and_append, BitVec.and_zero, BitVec.and_self]

namespace Machine

theorem and_three_of_le_three {options : Half} (h : options.toNat ≤ 3) : options &&& 3 = options := by
  apply BitVec.eq_of_toNat_eq
  calc (options &&& 3).toNat
      _ = options.toNat % 2 ^ 2 := Nat.and_two_pow_sub_one_eq_mod options.toNat 2
      _ = options.toNat := Nat.mod_eq_of_lt (by omega)

/-- A legal mask keeps the options values that lie in its bits 1:0 (R152). -/
theorem and_kindMask_of_le_three (p : Params) {options : Half} (h : options.toNat ≤ 3) :
    options &&& p.kindMask = options :=
  calc options &&& p.kindMask
      _ = options &&& 3 &&& p.kindMask := by rw [and_three_of_le_three h]
      _ = options &&& (p.kindMask &&& 3) := by rw [BitVec.and_assoc, BitVec.and_comm 3]
      _ = options := by rw [p.kindMask_and_three, and_three_of_le_three h]

/-- `kindOf` reads the options through the mask alone (R151). -/
theorem kindOf_eq_of_and_eq {mask mask' options options' : Half} (h : options &&& mask = options' &&& mask') :
    kindOf mask options = kindOf mask' options' := by
  simp only [kindOf, h]

/-- Masking twice is masking once, so the kind of a value is the kind of its masked value. -/
theorem kindOf_and_mask (mask options : Half) : kindOf mask (options &&& mask) = kindOf mask options :=
  kindOf_eq_of_and_eq (by rw [BitVec.and_assoc, BitVec.and_self])

/-- Options 0 to 3 have under every legal mask the kind they have under the smallest one. -/
theorem kindOf_kindMask_of_le_three (p : Params) {options : Half} (h : options.toNat ≤ 3) :
    kindOf p.kindMask options = kindOf 3 options :=
  kindOf_eq_of_and_eq ((and_kindMask_of_le_three p h).trans (and_three_of_le_three h).symm)

/-- Settles O32: the options 0 to 3 are classified as under the smallest legal mask, where each kind is computed. -/
theorem kindsHoldForEveryLegalMask : Obligations.KindsHoldForEveryLegalMask := by
  intro p
  have hpush : kindOf p.kindMask 1 = .ok .push := kindOf_kindMask_of_le_three p (by decide)
  have hsubscribe : kindOf p.kindMask 2 = .ok .subscribe := kindOf_kindMask_of_le_three p (by decide)
  have hzero : kindOf p.kindMask 0 = .error .unknownMessageKind := kindOf_kindMask_of_le_three p (by decide)
  have hthree : kindOf p.kindMask 3 = .error .unknownMessageKind := kindOf_kindMask_of_le_three p (by decide)
  exact ⟨p.kindMask_and_three, fun _ => and_kindMask_of_le_three p, hpush, hsubscribe, hzero, hthree,
    fun options => (kindOf_and_mask p.kindMask options).symm⟩

end Machine
end Sys2Proof

/-!
The invariant of the block (10_state.md R40, R41): what it holds of after reset, what each update of the state keeps of it, and
that every instruction and every step keep it.
-/
namespace Sys2Proof.Machine

section WrittenRanges
variable {m : Memory} {lo hi : Nat}

/-- A byte holds a value after a write exactly when the write covered it or it held one before. -/
theorem Memory.isSome_read_writeBytes (m : Memory) (a b : Nat) (bs : List Byte) :
    ((m.writeBytes a bs).read b).isSome = true ↔ (a ≤ b ∧ b < a + bs.length) ∨ (m.read b).isSome = true := by
  rw [writtenAt_writeBytes m a bs b]
  by_cases hin : a ≤ b ∧ b < a + bs.length
  · have hlt : b - a < bs.length := by omega
    simp [hin, List.getElem?_eq_getElem hlt]
  · simp [hin]

theorem spanWritten_of_le (m : Memory) (h : hi ≤ lo) : spanWritten m lo hi := fun a h1 h2 => by omega

theorem spanWritten.writeBytes (h : spanWritten m lo hi) (a : Nat) (bs : List Byte) :
    spanWritten (m.writeBytes a bs) lo hi :=
  fun b h1 h2 => (m.isSome_read_writeBytes a b bs).2 (.inr (h b h1 h2))

/-- A write right after a written range extends it. -/
theorem spanWritten.writeBytes_append (h : spanWritten m lo hi) (bs : List Byte) :
    spanWritten (m.writeBytes hi bs) lo (hi + bs.length) := by
  intro b h1 h2
  rw [Memory.isSome_read_writeBytes]
  by_cases hb : b < hi
  · exact .inr (h b h1 hb)
  · exact .inl ⟨by omega, h2⟩

/-- Forgetting what lies above a written range leaves it written. -/
theorem spanWritten.forget (h : spanWritten m lo hi) (top : Nat) : spanWritten (m.forget hi top) lo hi := by
  intro b h1 h2
  rw [m.read_forget_outside (.inl h2)]
  exact h b h1 h2

end WrittenRanges

variable {s t : State}

/-! ## What each part of the invariant reads -/

theorem MemoryInv.congr (h : MemoryInv s) (hp : t.params = s.params) (htx : t.tx = s.tx) (hrx : t.rx = s.rx) :
    MemoryInv t := by
  obtain ⟨h1, h2, h3, h4⟩ := h
  rw [← htx] at h1 h3
  rw [← hrx] at h2 h4
  rw [State.size_tx, ← hp] at h3
  rw [State.size_rx, ← hp] at h4
  exact ⟨h1, h2, h3, h4⟩

theorem BuilderInv.of_sameBuilder (h : BuilderInv s) (hst : SameBuilder s t) : BuilderInv t := by
  obtain ⟨hp, hphase, hcur, hbt, hbd, hfl, htx, -⟩ := hst
  obtain ⟨h1, h2, h3, h4, h5⟩ := h
  constructor <;> simpa only [State.frameHeader, State.size_tx, hp, hphase, hcur, hbt, hbd, hfl, htx]

theorem DecoderInv.of_sameDecoder (h : DecoderInv s) (hst : SameDecoder s t) : DecoderInv t := by
  obtain ⟨hp, hrl, hhv, hfv, htr, hh, hv, hrx⟩ := hst
  obtain ⟨h1, h2, h3, h4, h5, h6⟩ := h
  have hvs := hv
  have hhs := hh
  simp only [State.viewValues, List.cons.injEq, and_true] at hvs
  simp only [State.header, Header.mk.injEq] at hhs
  obtain ⟨hto, htl, hpo, hpl⟩ := hvs
  obtain ⟨-, -, -, hht, hhd⟩ := hhs
  constructor <;> simpa only [State.size_rx, hp, hrl, hhv, hfv, htr, hh, hrx, hto, htl, hpo, hpl, hht, hhd]

/-- A change of the builder alone keeps the decoder's part of the invariant (R259). -/
theorem Inv.of_sameDecoder (h : Inv s) (hm : MemoryInv t) (hb : BuilderInv t) (hst : SameDecoder s t) : Inv t :=
  ⟨hm, hb, h.decoder.of_sameDecoder hst⟩

/-- A change of the decoder alone keeps the builder's part of the invariant (R259). -/
theorem Inv.of_sameBuilder (h : Inv s) (hm : MemoryInv t) (hd : DecoderInv t) (hst : SameBuilder s t) : Inv t :=
  ⟨hm, h.builder.of_sameBuilder hst, hd⟩

/-- The invariant reads neither CRC, ERR, the response nor the command port. -/
theorem Inv.of_same (h : Inv s) (hb : SameBuilder s t) (hd : SameDecoder s t) : Inv t := by
  have hm : MemoryInv t := by
    obtain ⟨hp, -, -, -, -, -, htx, -⟩ := hb
    obtain ⟨-, -, -, -, -, -, -, hrx⟩ := hd
    exact h.memory.congr hp htx hrx
  exact ⟨hm, h.builder.of_sameBuilder hb, h.decoder.of_sameDecoder hd⟩

theorem Inv.respond (h : Inv s) (st : Status) (vs : List Word) (bs : List Byte) : Inv (s.respond st vs bs) :=
  h.of_same ⟨rfl, rfl, rfl, rfl, rfl, rfl, rfl, rfl⟩ ⟨rfl, rfl, rfl, rfl, rfl, rfl, rfl, rfl⟩

theorem Inv.reject (h : Inv s) (st : Status) : Inv (s.reject st) := h.respond st [] []

theorem Inv.answer (h : Inv s) (st : Status) (vs : List Word) (bs : List Byte) : Inv (s.answer st vs bs) :=
  h.of_same ⟨rfl, rfl, rfl, rfl, rfl, rfl, rfl, rfl⟩ ⟨rfl, rfl, rfl, rfl, rfl, rfl, rfl, rfl⟩

theorem Inv.taken (h : Inv s) (rest : List HostEvent) : Inv (s.taken rest) :=
  h.of_same ⟨rfl, rfl, rfl, rfl, rfl, rfl, rfl, rfl⟩ ⟨rfl, rfl, rfl, rfl, rfl, rfl, rfl, rfl⟩

theorem Inv.setCrc (h : Inv s) (c : Word) : Inv { s with crc := c } :=
  h.of_same ⟨rfl, rfl, rfl, rfl, rfl, rfl, rfl, rfl⟩ ⟨rfl, rfl, rfl, rfl, rfl, rfl, rfl, rfl⟩

/-! ## Memory -/

theorem MemoryInv.putBytes (h : MemoryInv s) {sp : Space} {a : Nat} {bs : List Byte} (hfit : a + bs.length ≤ s.size sp) :
    MemoryInv (s.putBytes sp a bs) := by
  obtain ⟨htxc, hrxc, htx, hrx⟩ := h
  cases sp with
  | tx =>
    refine ⟨Memory.writeBytes_wf htxc a bs, hrxc, fun c hc => ?_, hrx⟩
    rcases s.tx.mem_writeBytes hc with hc | ⟨-, hc⟩
    · exact htx c hc
    · exact Nat.lt_of_lt_of_le hc hfit
  | rx =>
    refine ⟨htxc, Memory.writeBytes_wf hrxc a bs, htx, fun c hc => ?_⟩
    rcases s.rx.mem_writeBytes hc with hc | ⟨-, hc⟩
    · exact hrx c hc
    · exact Nat.lt_of_lt_of_le hc hfit

theorem MemoryInv.askSerializer (h : MemoryInv s) (v : Word) (rest : List SerAnswer) :
    MemoryInv (s.askSerializer v rest) :=
  ⟨Memory.forget_wf h.txCanonical _ _, h.rxCanonical, fun c hc => h.txInside c (s.tx.mem_forget hc), h.rxInside⟩

/-! ## The builder (R40) -/

theorem BuilderInv.of_empty (hp : s.phase = .empty) (hcur : s.cur = 16) (hbt : s.bTopicLen = 0) (hbd : s.bDataLen = 0)
    (hfl : s.frameLen = 0) : BuilderInv s := by
  constructor <;> simp [hp, hcur, hbt, hbd, hfl]

theorem Inv.bldReset (h : Inv s) :
    Inv { s with phase := .empty, cur := 16, bTopicLen := 0, bDataLen := 0, frameLen := 0 } :=
  h.of_sameDecoder (h.memory.congr rfl rfl rfl) (.of_empty rfl rfl rfl rfl rfl) ⟨rfl, rfl, rfl, rfl, rfl, rfl, rfl, rfl⟩

/-- SET_TOPIC's effect in EMPTY (R180). -/
theorem Inv.setTopic (h : Inv s) (hp : s.phase = .empty) {data : List Byte} (hmax : data.length ≤ maxTopic)
    (hfit : headerBytes + data.length ≤ s.size .tx) :
    Inv { (s.putBytes .tx headerBytes data) with
      bTopicLen := BitVec.ofNat 16 data.length
      cur := BitVec.ofNat 32 (headerBytes + data.length)
      phase := .topic } := by
  obtain ⟨-, -, hbd, hfl⟩ := h.builder.empty hp
  have hbt : (BitVec.ofNat 16 data.length).toNat = data.length := by
    simp only [maxTopic] at hmax
    simp only [BitVec.toNat_ofNat]
    omega
  have hcur : (BitVec.ofNat 32 (headerBytes + data.length)).toNat = headerBytes + data.length := by
    rw [BitVec.toNat_ofNat]
    exact Nat.mod_eq_of_lt (Nat.lt_of_le_of_lt hfit s.params.capacity.isLt)
  refine h.of_sameDecoder ((h.memory.putBytes hfit).congr rfl rfl rfl) ?_ ⟨rfl, rfl, rfl, rfl, rfl, rfl, rfl, rfl⟩
  exact {
    empty := nofun
    topic := fun _ => ⟨by rw [hcur, hbt], by rw [hcur]; exact hfit, hbd, hfl⟩
    data := nofun
    finalized := nofun
    written := fun _ => by
      rw [hcur]
      exact (spanWritten_of_le s.tx (Nat.le_refl headerBytes)).writeBytes_append data }

/-- The effect in TOPIC that WRITE_RAW and WRITE_VIA share (R182, R188). -/
theorem Inv.putPayload (h : Inv s) (hp : s.phase = .topic) {bs : List Byte} (hfit : s.cur.toNat + bs.length ≤ s.size .tx) :
    Inv (s.putPayload bs) := by
  obtain ⟨htopic, -, -, hfl⟩ := h.builder.topic hp
  have hlt : s.cur.toNat + bs.length < 2 ^ 32 := Nat.lt_of_le_of_lt hfit s.params.capacity.isLt
  have hcur : (s.putPayload bs).cur.toNat = s.cur.toNat + bs.length := by
    rw [State.putPayload_cur, BitVec.toNat_ofNat, Nat.mod_eq_of_lt hlt]
  have hbd : (s.putPayload bs).bDataLen.toNat = bs.length := by
    rw [State.putPayload_bDataLen, BitVec.toNat_ofNat, Nat.mod_eq_of_lt (by omega)]
  refine h.of_sameDecoder ((h.memory.putBytes hfit).congr rfl rfl rfl) ?_ ⟨rfl, rfl, rfl, rfl, rfl, rfl, rfl, rfl⟩
  exact {
    empty := nofun
    topic := nofun
    data := fun _ => ⟨by rw [hcur, hbd, htopic]; rfl, by rw [hcur]; exact hfit, hfl⟩
    finalized := nofun
    written := fun _ => by
      rw [hcur]
      exact (h.builder.written (by simp [hp])).writeBytes_append bs }

/-- Asking the serializer leaves the topic's bytes, which lie below CUR (R187). -/
theorem Inv.askSerializer (h : Inv s) (hp : s.phase = .topic) (v : Word) (rest : List SerAnswer) :
    Inv (s.askSerializer v rest) := by
  refine h.of_sameDecoder (h.memory.askSerializer v rest) ?_ ⟨rfl, rfl, rfl, rfl, rfl, rfl, rfl, rfl⟩
  have hphase : (s.askSerializer v rest).phase = .topic := hp
  exact {
    empty := by simp only [hphase]; exact nofun
    topic := fun _ => h.builder.topic hp
    data := by simp only [hphase]; exact nofun
    finalized := by simp only [hphase]; exact nofun
    written := fun _ => (h.builder.written (by simp [hp])).forget _ }

/-- FINALIZE's effect in DATA: the header goes below the body it describes (R190, R191). -/
theorem Inv.finalize (h : Inv s) (hp : s.phase = .data) {kind : Byte} (hkind : kind = 1 ∨ kind = 2)
    {body header : List Byte} (hbody : s.tx.readBytes headerBytes (s.cur.toNat - headerBytes) = some body)
    (hheader : header = encodeHeader (s.frameHeader kind body)) :
    Inv { (s.putBytes .tx 0 header) with frameLen := s.cur, phase := .finalized } := by
  obtain ⟨hcur, hfit, -⟩ := h.builder.data hp
  have hlen : header.length = headerBytes := by rw [hheader]; rfl
  refine h.of_sameDecoder ((h.memory.putBytes (by omega)).congr rfl rfl rfl) ?_ ⟨rfl, rfl, rfl, rfl, rfl, rfl, rfl, rfl⟩
  have hheaderRead : (s.tx.writeBytes 0 header).readBytes 0 headerBytes = some header :=
    hlen ▸ s.tx.readBytes_writeBytes 0 header
  have hbodyRead : (s.tx.writeBytes 0 header).readBytes headerBytes (s.cur.toNat - headerBytes) = some body := by
    rw [← hbody]
    exact Memory.readBytes_congr _ _ fun b hb _ => s.tx.read_writeBytes_outside 0 b header (.inr (by omega))
  exact {
    empty := nofun
    topic := nofun
    data := nofun
    finalized := fun _ => ⟨rfl, hcur, hfit, kind, body, hkind, hbodyRead, hheaderRead.trans (congrArg some hheader)⟩
    written := fun _ => (h.builder.written (by simp [hp])).writeBytes 0 header }

/-! ## The decoder (R41) -/

/-- With the valid bits clear only RXLEN and the bytes below it matter. -/
theorem DecoderInv.of_cleared (hhv : s.hdrValid = false) (hfv : s.frameValid = false) (htr : s.trunc = false)
    (hfit : s.rxLen.toNat ≤ s.size .rx) (hw : spanWritten s.rx 0 s.rxLen.toNat) : DecoderInv s := by
  constructor <;> simp_all

theorem Inv.clearValid (h : Inv s) : Inv s.clearValid :=
  h.of_sameBuilder (h.memory.congr rfl rfl rfl) (.of_cleared rfl rfl rfl h.decoder.rxLenFits h.decoder.written)
    ⟨rfl, rfl, rfl, rfl, rfl, rfl, rfl, rfl⟩

/-- RX_LOAD's effect (R141). -/
theorem Inv.rxLoad (h : Inv s) {data : List Byte} (hfit : data.length ≤ s.size .rx) :
    Inv { (s.putBytes .rx 0 data).clearValid with rxLen := BitVec.ofNat 32 data.length } := by
  have hlen : (BitVec.ofNat 32 data.length).toNat = data.length := by
    rw [BitVec.toNat_ofNat]
    exact Nat.mod_eq_of_lt (Nat.lt_of_le_of_lt hfit s.params.rxcap.isLt)
  have hput : MemoryInv (s.putBytes .rx 0 data) := h.memory.putBytes (by omega)
  refine h.of_sameBuilder (hput.congr rfl rfl rfl) (.of_cleared rfl rfl rfl ?_ ?_) ⟨rfl, rfl, rfl, rfl, rfl, rfl, rfl, rfl⟩
  · rw [hlen]
    exact hfit
  · have hw := (spanWritten_of_le s.rx (Nat.le_refl 0)).writeBytes_append data
    rw [Nat.zero_add] at hw
    rw [hlen]
    exact hw

/-- HDR_DECODE's effect on a header in RX (R104). -/
theorem Inv.hdrDecode (h : Inv s) (hlen : headerBytes ≤ s.rxLen.toNat) {bs : List Byte}
    (hread : s.rx.readBytes 0 headerBytes = some bs) :
    Inv { (s.clearFrameValid.setHeader (headerFields bs)) with hdrValid := true } := by
  refine h.of_sameBuilder (h.memory.congr rfl rfl rfl) ?_ ⟨rfl, rfl, rfl, rfl, rfl, rfl, rfl, rfl⟩
  exact {
    rxLenFits := h.decoder.rxLenFits
    frameHasHeader := fun _ => rfl
    truncHasFrame := nofun
    views := nofun
    header := fun _ => ⟨hlen, bs, hread, rfl⟩
    written := h.decoder.written }

theorem topicEnd_lt (h : Header) (n : Word) : topicEnd h n.toNat < 2 ^ 32 :=
  Nat.lt_of_le_of_lt ((topicEnd_le_clampedEnd h _).trans (clampedEnd_le h _)) n.isLt

theorem clampedEnd_lt (h : Header) (n : Word) : clampedEnd h n.toNat < 2 ^ 32 :=
  Nat.lt_of_le_of_lt (clampedEnd_le h _) n.isLt

theorem parsedWith_vTopicLen_toNat (s : State) (h : Header) :
    (parsedWith s h).vTopicLen.toNat = topicEnd h s.rxLen.toNat - headerBytes :=
  (BitVec.toNat_ofNat _ _).trans (Nat.mod_eq_of_lt ((Nat.sub_le _ _).trans_lt (topicEnd_lt h s.rxLen)))

theorem parsedWith_vPayloadOff_toNat (s : State) (h : Header) :
    (parsedWith s h).vPayloadOff.toNat = topicEnd h s.rxLen.toNat :=
  (BitVec.toNat_ofNat _ _).trans (Nat.mod_eq_of_lt (topicEnd_lt h s.rxLen))

theorem parsedWith_vPayloadLen_toNat (s : State) (h : Header) :
    (parsedWith s h).vPayloadLen.toNat = clampedEnd h s.rxLen.toNat - topicEnd h s.rxLen.toNat :=
  (BitVec.toNat_ofNat _ _).trans (Nat.mod_eq_of_lt ((Nat.sub_le _ _).trans_lt (clampedEnd_lt h s.rxLen)))

theorem viewLengths_le (h : Header) (n : Nat) :
    topicEnd h n - headerBytes ≤ h.topicLen.toNat ∧ clampedEnd h n - topicEnd h n ≤ h.dataLen.toNat := by
  simp only [topicEnd, clampedEnd, declaredEnd]
  omega

/-- The views have the declared lengths exactly when the parse is not truncated (R143 to R146). -/
theorem isTruncated_eq_false_iff (h : Header) {n : Nat} (hn : headerBytes ≤ n) :
    isTruncated h n = false ↔
      topicEnd h n - headerBytes = h.topicLen.toNat ∧ clampedEnd h n - topicEnd h n = h.dataLen.toNat := by
  rw [isTruncated, decide_eq_false_iff_not]
  simp only [topicEnd, clampedEnd, declaredEnd]
  omega

/-- FRAME_PARSE's effect on a header in RX (R145). -/
theorem Inv.parsedWith (h : Inv s) (hlen : headerBytes ≤ s.rxLen.toNat) {bs : List Byte}
    (hread : s.rx.readBytes 0 headerBytes = some bs) : Inv (parsedWith s (headerFields bs)) := by
  refine h.of_sameBuilder (h.memory.congr rfl rfl rfl) ?_ ⟨rfl, rfl, rfl, rfl, rfl, rfl, rfl, rfl⟩
  generalize hh : headerFields bs = hdr
  have hge := headerBytes_le_topicEnd hdr hlen
  have hle := topicEnd_le_clampedEnd hdr s.rxLen.toNat
  obtain ⟨htopic, hpayload⟩ := viewLengths_le hdr s.rxLen.toNat
  exact {
    rxLenFits := h.decoder.rxLenFits
    frameHasHeader := fun _ => rfl
    truncHasFrame := fun _ => rfl
    views := fun _ => by
      rw [parsedWith_vTopicLen_toNat, parsedWith_vPayloadOff_toNat, parsedWith_vPayloadLen_toNat]
      exact ⟨rfl, by omega, Nat.add_sub_of_le hle, htopic, hpayload, isTruncated_eq_false_iff hdr hlen⟩
    header := fun _ => ⟨hlen, bs, hread, hh⟩
    written := h.decoder.written }

/-! ## Every instruction and every step -/

/-- Every instruction keeps the invariant. -/
theorem exec_keeps_inv {i : Instr} (h : Inv s) (hx : exec i s = .next t) : Inv t := by
  cases i with
  | crcInit =>
    cases hx
    exact (h.setCrc _).respond _ _ _
  | crcUpdate data =>
    cases hx
    exact (h.setCrc _).respond _ _ _
  | crcFinal =>
    cases hx
    exact h.respond _ _ _
  | crcOneshot data =>
    cases hx
    exact h.respond _ _ _
  | hdrEncode magic checksum options topicLen dataLen =>
    cases hx
    exact h.respond _ _ _
  | hdrDecode =>
    obtain ⟨-, rfl⟩ | ⟨hlen, -, bs, hread, rfl⟩ := exec_hdrDecode_cases hx
    · exact h.clearValid.reject _
    · exact (h.hdrDecode hlen hread).respond _ _ _
  | msgType =>
    obtain ⟨-, rfl⟩ | ⟨-, st, -, rfl⟩ := exec_msgType_cases hx
    · exact h.reject _
    · exact h.respond _ _ _
  | frameParse =>
    obtain ⟨-, rfl⟩ | ⟨hlen, -, bs, hread, rfl⟩ := exec_frameParse_cases hx
    · exact h.clearValid.reject _
    · exact (h.parsedWith hlen hread).respond _ _ _
  | verify =>
    obtain ⟨-, rfl⟩ | ⟨-, -, rfl⟩ | ⟨-, -, -, rfl⟩ | ⟨-, -, -, bs, -, ⟨-, rfl⟩ | ⟨-, rfl⟩⟩ := exec_verify_cases hx
    all_goals exact h.respond _ _ _
  | rxLoad data =>
    obtain ⟨-, rfl⟩ | ⟨hfit, rfl⟩ := exec_rxLoad_cases hx
    · exact h.reject _
    · exact (h.rxLoad hfit).respond _ _ _
  | bldReset =>
    cases hx
    exact h.bldReset.respond _ _ _
  | setTopic data =>
    obtain ⟨-, rfl⟩ | ⟨-, -, rfl⟩ | ⟨hp, hmax, hfit, rfl⟩ := exec_setTopic_cases hx
    · exact h.reject _
    · exact h.reject _
    · exact (h.setTopic hp hmax hfit).respond _ _ _
  | writeRaw data =>
    obtain ⟨-, rfl⟩ | ⟨-, -, rfl⟩ | ⟨hp, hfit, rfl⟩ := exec_writeRaw_cases hx
    · exact h.reject _
    · exact h.reject _
    · exact (h.putPayload hp hfit).respond _ _ _
  | writeVia valueId =>
    obtain ⟨-, rfl⟩ | ⟨-, -, rfl⟩ | ⟨hp, -, ans, rest, -, hans⟩ := exec_writeVia_cases hx
    · exact h.reject _
    · exact h.reject _
    · have hasked := h.askSerializer hp valueId rest
      obtain ⟨-, rfl⟩ | ⟨-, rfl⟩ | ⟨bs, -, -, rfl⟩ | ⟨bs, -, hfit, rfl⟩ := hans
      · exact hasked.reject _
      · exact hasked.reject _
      · exact hasked.reject _
      · exact (hasked.putPayload hp hfit).respond _ _ _
  | finalize kind =>
    obtain ⟨-, rfl⟩ | ⟨-, -, rfl⟩ | ⟨hp, hkind, body, header, -, hbody, hheader, rfl⟩ := exec_finalize_cases hx
    · exact h.reject _
    · exact h.reject _
    · exact (h.finalize hp hkind hbody hheader).respond _ _ _
  | asFrame =>
    obtain ⟨-, rfl⟩ | ⟨-, frame, -, -, rfl⟩ := exec_asFrame_cases hx
    · exact h.reject _
    · exact h.respond _ _ _
  | getStatus =>
    cases hx
    exact h.answer _ _ _

theorem inv_resetOf (p : Params) : Inv (State.resetOf p) where
  memory := ⟨State.resetOf_mem_wf p .tx, State.resetOf_mem_wf p .rx, nofun, nofun⟩
  builder := .of_empty rfl rfl rfl rfl rfl
  decoder := .of_cleared rfl rfl rfl (Nat.zero_le _) (spanWritten_of_le [] (Nat.le_refl 0))

/-- A reset event leaves the state of R43, but for the two lists the invariant does not read. -/
theorem inv_resetEvent (s : State) : Inv s.resetEvent :=
  ⟨(inv_resetOf s.params).memory.congr rfl rfl rfl, .of_empty rfl rfl rfl rfl rfl,
    (inv_resetOf s.params).decoder.of_sameDecoder ⟨rfl, rfl, rfl, rfl, rfl, rfl, rfl, rfl⟩⟩

/-- Settles O57. -/
theorem resetSatisfiesTheInvariant : Obligations.ResetSatisfiesTheInvariant :=
  ⟨inv_resetOf Config.params, inv_resetOf⟩

/-- Settles O58, by what the host's next event is. -/
theorem stepKeepsTheInvariant : Obligations.StepKeepsTheInvariant := by
  intro s t h hstep
  obtain ⟨-, rfl⟩ | ⟨rest, -, rfl⟩ | ⟨c, rest, i, -, -, hx⟩ | ⟨c, rest, why, -, -, rfl⟩ := step_cases s hstep
  · exact h
  · exact inv_resetEvent _
  · exact exec_keeps_inv (h.taken rest) hx
  · exact (h.taken rest).reject _

end Sys2Proof.Machine

/-!
What each instruction leaves unchanged (10_state.md R44): one frame lemma per update of the state, and from them the frame of
every instruction.
-/
namespace Sys2Proof.Machine

variable {i : Instr} {s t : State} {r : Reg}

/-! ## Registers -/

theorem State.reg_respond (s : State) (st : Status) (vs : List Word) (bs : List Byte) (hr : r ≠ .err) :
    (s.respond st vs bs).reg r = s.reg r := by
  cases r <;> simp at hr <;> rfl

theorem State.reg_clearValid (s : State) (hr : r ∉ validBits) : s.clearValid.reg r = s.reg r := by
  cases r <;> simp [validBits] at hr <;> rfl

theorem reg_parsedWith (s : State) (h : Header) (hr : r ∉ validBits ++ headerRegs ++ viewRegs) :
    (parsedWith s h).reg r = s.reg r := by
  cases r <;> simp [validBits, headerRegs, viewRegs] at hr <;> rfl

theorem State.reg_putPayload (s : State) (bs : List Byte) (hr : r ∉ [.bDataLen, .cur, .phase]) :
    (s.putPayload bs).reg r = s.reg r := by
  cases r <;> simp at hr <;> rfl

theorem State.reg_askSerializer (s : State) (v : Word) (rest : List SerAnswer) (r : Reg) :
    (s.askSerializer v rest).reg r = s.reg r := by
  cases r <;> rfl

/-! ## Bytes -/

theorem State.readByte_putBytes_outside (s : State) (sp : Space) {a b : Nat} (bs : List Byte)
    (h : b < a ∨ a + bs.length ≤ b) : (s.putBytes sp a bs).readByte sp b = s.readByte sp b := by
  cases sp <;> exact Memory.read_writeBytes_outside _ a b bs h

theorem State.mem_putBytes_of_ne (s : State) {sp sp' : Space} (a : Nat) (bs : List Byte) (h : sp' ≠ sp) :
    (s.putBytes sp a bs).mem sp' = s.mem sp' := by
  match sp, sp' with
  | .tx, .rx | .rx, .tx => rfl
  | .tx, .tx | .rx, .rx => exact absurd rfl h

/-! ## Frames -/

theorem sameSurroundings_refl (s : State) : SameSurroundings s s := ⟨rfl, rfl, rfl, rfl⟩

/-- A state that differs in registers the instruction may write. -/
theorem Framed.of_regs (hregs : ∀ r, r ∉ writesRegs i.op → t.reg r = s.reg r) (htx : t.tx = s.tx) (hrx : t.rx = s.rx)
    (hs : SameSurroundings s t) : Framed i s t := by
  have hmem : ∀ sp, t.mem sp = s.mem sp := fun sp => by cases sp <;> assumption
  obtain ⟨hp, hin, -⟩ := id hs
  exact ⟨hregs, fun sp a _ => congrArg (·.read a) (hmem sp), hp, hin, fun _ => hs⟩

/-- A state that differs in registers the instruction may write and in the bytes of its stored range. -/
theorem Framed.of_store {sp : Space} {lo hi : Nat} (hspan : storeSpan s i = some (sp, lo, hi))
    (hregs : ∀ r, r ∉ writesRegs i.op → t.reg r = s.reg r)
    (houtside : ∀ a, a < lo ∨ hi ≤ a → t.readByte sp a = s.readByte sp a)
    (hother : ∀ sp', sp' ≠ sp → t.mem sp' = s.mem sp')
    (hp : t.params = s.params) (hin : t.inbox = s.inbox) (hs : i.op ≠ .writeVia → SameSurroundings s t) : Framed i s t := by
  refine ⟨hregs, fun sp' a ha => ?_, hp, hin, hs⟩
  by_cases hsp : sp' = sp
  · subst hsp
    exact houtside a (ha lo hi hspan)
  · exact congrArg (·.read a) (hother sp' hsp)

theorem Framed.refl (i : Instr) (s : State) : Framed i s s := .of_regs (fun _ _ => rfl) rfl rfl (sameSurroundings_refl s)

/-- Answering adds ERR to the registers written. -/
theorem Framed.respond (h : Framed i s t) (herr : .err ∈ writesRegs i.op) (st : Status) (vs : List Word) (bs : List Byte) :
    Framed i s (t.respond st vs bs) := by
  obtain ⟨hregs, hmem, hp, hin, hs⟩ := h
  refine ⟨fun r hr => ?_, fun sp a ha => ?_, hp, hin, hs⟩
  · rw [t.reg_respond st vs bs (ne_of_mem_of_not_mem herr hr).symm]
    exact hregs r hr
  · rw [← hmem sp a ha]
    cases sp <;> rfl

/-! ## The instructions that store bytes -/

theorem framed_rxLoad (s : State) (data : List Byte) :
    Framed (.rxLoad data) s { (s.putBytes .rx 0 data).clearValid with rxLen := BitVec.ofNat 32 data.length } := by
  refine .of_store rfl (fun r hr => ?_) (fun a ha => s.readByte_putBytes_outside .rx data (by omega))
    (fun sp hsp => s.mem_putBytes_of_ne 0 data hsp) rfl rfl fun _ => sameSurroundings_refl s
  cases r <;> simp [Instr.op, writesRegs, validBits] at hr <;> rfl

theorem framed_setTopic (s : State) (data : List Byte) :
    Framed (.setTopic data) s
      { (s.putBytes .tx headerBytes data) with
        bTopicLen := BitVec.ofNat 16 data.length
        cur := BitVec.ofNat 32 (headerBytes + data.length)
        phase := .topic } := by
  refine .of_store rfl (fun r hr => ?_) (fun a ha => s.readByte_putBytes_outside .tx data ha)
    (fun sp hsp => s.mem_putBytes_of_ne headerBytes data hsp) rfl rfl fun _ => sameSurroundings_refl s
  cases r <;> simp [Instr.op, writesRegs] at hr <;> rfl

theorem framed_writeRaw (s : State) (data : List Byte) : Framed (.writeRaw data) s (s.putPayload data) := by
  refine .of_store rfl (fun r hr => s.reg_putPayload data ?_) (fun a ha => s.readByte_putBytes_outside .tx data ha)
    (fun sp hsp => s.mem_putBytes_of_ne s.cur.toNat data hsp) rfl rfl fun _ => sameSurroundings_refl s
  exact fun h => hr (List.mem_append_left [Reg.err] h)

theorem framed_askSerializer (s : State) (v : Word) (rest : List SerAnswer) :
    Framed (.writeVia v) s (s.askSerializer v rest) := by
  refine .of_store rfl (fun r _ => s.reg_askSerializer v rest r) (fun a ha => s.tx.read_forget_outside ha)
    (fun sp hsp => ?_) rfl rfl fun h => absurd rfl h
  cases sp with
  | tx => exact absurd rfl hsp
  | rx => rfl

/-- A payload that fits lies in TX[CUR : CAPACITY), the range WRITE_VIA may store to (R188). -/
theorem Framed.putPayload {v : Word} (h : Framed (.writeVia v) s t) (hcur : t.cur = s.cur) {bs : List Byte}
    (hfit : s.cur.toNat + bs.length ≤ s.size .tx) : Framed (.writeVia v) s (t.putPayload bs) := by
  obtain ⟨hregs, hmem, hp, hin, hs⟩ := h
  refine ⟨fun r hr => ?_, fun sp a ha => ?_, hp, hin, hs⟩
  · rw [t.reg_putPayload bs fun h => hr (List.mem_append_left [Reg.err] h), hregs r hr]
  · rw [← hmem sp a ha]
    cases sp with
    | tx =>
      have hout := ha s.cur.toNat (s.size .tx) rfl
      rw [← hcur] at hout hfit
      exact t.readByte_putBytes_outside .tx bs (by omega)
    | rx => rfl

theorem framed_finalize (s : State) (kind : Byte) {header : List Byte} (hlen : header.length = headerBytes) :
    Framed (.finalize kind) s { (s.putBytes .tx 0 header) with frameLen := s.cur, phase := .finalized } := by
  refine .of_store rfl (fun r hr => ?_) (fun a ha => s.readByte_putBytes_outside .tx header (by omega))
    (fun sp hsp => s.mem_putBytes_of_ne 0 header hsp) rfl rfl fun _ => sameSurroundings_refl s
  cases r <;> simp [Instr.op, writesRegs] at hr <;> rfl

/-! ## The instructions that write registers only -/

theorem framed_setCrc (hcrc : .crc ∈ writesRegs i.op) (s : State) (c : Word) : Framed i s { s with crc := c } := by
  refine .of_regs (fun r hr => ?_) rfl rfl (sameSurroundings_refl s)
  cases r
  case crc => exact absurd hcrc hr
  all_goals rfl

theorem framed_clearValid (hi : validBits ⊆ writesRegs i.op) (s : State) : Framed i s s.clearValid :=
  .of_regs (fun _ hr => s.reg_clearValid fun h => hr (hi h)) rfl rfl (sameSurroundings_refl s)

theorem framed_hdrDecode (s : State) (h : Header) :
    Framed .hdrDecode s { (s.clearFrameValid.setHeader h) with hdrValid := true } := by
  refine .of_regs (fun r hr => ?_) rfl rfl (sameSurroundings_refl s)
  cases r <;> simp [Instr.op, writesRegs, validBits, headerRegs] at hr <;> rfl

theorem framed_parsedWith (s : State) (h : Header) : Framed .frameParse s (parsedWith s h) :=
  .of_regs (fun _ hr => reg_parsedWith s h fun h => hr (List.mem_append_left [Reg.err] h)) rfl rfl (sameSurroundings_refl s)

theorem framed_bldReset (s : State) :
    Framed .bldReset s { s with phase := .empty, cur := 16, bTopicLen := 0, bDataLen := 0, frameLen := 0 } := by
  refine .of_regs (fun r hr => ?_) rfl rfl (sameSurroundings_refl s)
  cases r <;> simp [Instr.op, writesRegs] at hr <;> rfl

theorem framed_getStatus (s : State) (st : Status) (vs : List Word) (bs : List Byte) :
    Framed .getStatus s (s.answer st vs bs) := by
  refine .of_regs (fun r _ => ?_) rfl rfl (sameSurroundings_refl s)
  cases r <;> rfl

/-! ## Every instruction -/

/-- GET_STATUS is the only instruction that does not write ERR (R36). -/
theorem err_mem_writesRegs {op : Op} (h : op ≠ .getStatus) : .err ∈ writesRegs op := by
  cases op
  case getStatus => exact absurd rfl h
  all_goals decide

/-- Every instruction changes at most what the writer table and its stored range allow (R44). -/
theorem exec_framed (hx : exec i s = .next t) : Framed i s t := by
  by_cases hi : i.op = .getStatus
  · cases i <;> cases hi
    cases hx
    exact framed_getStatus s _ _ _
  have herr := err_mem_writesRegs hi
  have hself := Framed.refl i s
  cases i with
  | crcInit | crcUpdate data =>
    cases hx
    exact (framed_setCrc List.mem_cons_self s _).respond herr _ _ _
  | crcFinal | crcOneshot data | hdrEncode magic checksum options topicLen dataLen =>
    cases hx
    exact hself.respond herr _ _ _
  | hdrDecode =>
    obtain ⟨-, rfl⟩ | ⟨-, -, bs, -, rfl⟩ := exec_hdrDecode_cases hx
    · exact (framed_clearValid (by decide) s).respond herr _ _ _
    · exact (framed_hdrDecode s _).respond herr _ _ _
  | msgType =>
    obtain ⟨-, rfl⟩ | ⟨-, st, -, rfl⟩ := exec_msgType_cases hx
    all_goals exact hself.respond herr _ _ _
  | frameParse =>
    obtain ⟨-, rfl⟩ | ⟨-, -, bs, -, rfl⟩ := exec_frameParse_cases hx
    · exact (framed_clearValid (by decide) s).respond herr _ _ _
    · exact (framed_parsedWith s _).respond herr _ _ _
  | verify =>
    obtain ⟨-, rfl⟩ | ⟨-, -, rfl⟩ | ⟨-, -, -, rfl⟩ | ⟨-, -, -, bs, -, ⟨-, rfl⟩ | ⟨-, rfl⟩⟩ := exec_verify_cases hx
    all_goals exact hself.respond herr _ _ _
  | rxLoad data =>
    obtain ⟨-, rfl⟩ | ⟨-, rfl⟩ := exec_rxLoad_cases hx
    · exact hself.respond herr _ _ _
    · exact (framed_rxLoad s data).respond herr _ _ _
  | bldReset =>
    cases hx
    exact (framed_bldReset s).respond herr _ _ _
  | setTopic data =>
    obtain ⟨-, rfl⟩ | ⟨-, -, rfl⟩ | ⟨-, -, -, rfl⟩ := exec_setTopic_cases hx
    · exact hself.respond herr _ _ _
    · exact hself.respond herr _ _ _
    · exact (framed_setTopic s data).respond herr _ _ _
  | writeRaw data =>
    obtain ⟨-, rfl⟩ | ⟨-, -, rfl⟩ | ⟨-, -, rfl⟩ := exec_writeRaw_cases hx
    · exact hself.respond herr _ _ _
    · exact hself.respond herr _ _ _
    · exact (framed_writeRaw s data).respond herr _ _ _
  | writeVia v =>
    obtain ⟨-, rfl⟩ | ⟨-, -, rfl⟩ | ⟨-, -, ans, rest, -, hans⟩ := exec_writeVia_cases hx
    · exact hself.respond herr _ _ _
    · exact hself.respond herr _ _ _
    · have hasked := framed_askSerializer s v rest
      obtain ⟨-, rfl⟩ | ⟨-, rfl⟩ | ⟨bs, -, -, rfl⟩ | ⟨bs, -, hfit, rfl⟩ := hans
      · exact hasked.respond herr _ _ _
      · exact hasked.respond herr _ _ _
      · exact hasked.respond herr _ _ _
      · exact (hasked.putPayload rfl hfit).respond herr _ _ _
  | finalize kind =>
    obtain ⟨-, rfl⟩ | ⟨-, -, rfl⟩ | ⟨-, -, body, header, -, -, hheader, rfl⟩ := exec_finalize_cases hx
    · exact hself.respond herr _ _ _
    · exact hself.respond herr _ _ _
    · have hlen : header.length = headerBytes := by rw [hheader]; rfl
      exact (framed_finalize s kind hlen).respond herr _ _ _
  | asFrame =>
    obtain ⟨-, rfl⟩ | ⟨-, frame, -, -, rfl⟩ := exec_asFrame_cases hx
    all_goals exact hself.respond herr _ _ _
  | getStatus => exact absurd rfl hi

/-- Settles O50. -/
theorem checksumAndStatusCommandsFrame : Obligations.ChecksumAndStatusCommandsFrame := fun _ _ _ _ => exec_framed

/-- Settles O51. -/
theorem decoderCommandsFrame : Obligations.DecoderCommandsFrame := fun _ _ _ _ => exec_framed

/-- Settles O52. -/
theorem builderCommandsFrame : Obligations.BuilderCommandsFrame := fun _ _ _ _ => exec_framed

/-- Settles O10, from the frame of the instruction that the step runs. -/
theorem parametersNeverChange : Obligations.ParametersNeverChange := by
  intro s t hstep
  obtain ⟨-, rfl⟩ | ⟨rest, -, rfl⟩ | ⟨c, rest, i, -, -, hx⟩ | ⟨c, rest, why, -, -, rfl⟩ := step_cases s hstep
  · rfl
  · rfl
  · obtain ⟨-, -, hp, -, -⟩ := exec_framed hx
    exact hp
  · rfl

end Sys2Proof.Machine

/-!
The state after reset, the STATUS word and the status register (10_state.md R36, R37, R43).
-/
namespace Sys2Proof.Machine

variable {i : Instr} {s t : State}

/-- Settles O8. -/
theorem resetLeavesTheTabledValues : Obligations.ResetLeavesTheTabledValues :=
  ⟨fun _ => ⟨rfl, rfl, rfl, rfl, rfl, rfl, rfl, rfl, rfl, rfl, rfl, rfl, rfl, rfl, rfl, rfl, rfl, rfl, rfl, rfl, rfl⟩,
    Config.params, rfl, rfl, rfl⟩

/-! ## ERR (R36) -/

/-- Every instruction but GET_STATUS ends by writing the status it answers to ERR (R36, R84). -/
theorem exec_eq_respond (hi : i ≠ .getStatus) (hx : exec i s = .next t) : ∃ u st vs bs, t = State.respond u st vs bs := by
  cases i with
  | crcInit | crcUpdate data | crcFinal | crcOneshot data | hdrEncode magic checksum options topicLen dataLen | bldReset =>
    cases hx
    exact ⟨_, _, _, _, rfl⟩
  | hdrDecode =>
    obtain ⟨-, rfl⟩ | ⟨-, -, bs, -, rfl⟩ := exec_hdrDecode_cases hx
    all_goals exact ⟨_, _, _, _, rfl⟩
  | msgType =>
    obtain ⟨-, rfl⟩ | ⟨-, st, -, rfl⟩ := exec_msgType_cases hx
    all_goals exact ⟨_, _, _, _, rfl⟩
  | frameParse =>
    obtain ⟨-, rfl⟩ | ⟨-, -, bs, -, rfl⟩ := exec_frameParse_cases hx
    all_goals exact ⟨_, _, _, _, rfl⟩
  | verify =>
    obtain ⟨-, rfl⟩ | ⟨-, -, rfl⟩ | ⟨-, -, -, rfl⟩ | ⟨-, -, -, bs, -, ⟨-, rfl⟩ | ⟨-, rfl⟩⟩ := exec_verify_cases hx
    all_goals exact ⟨_, _, _, _, rfl⟩
  | rxLoad data =>
    obtain ⟨-, rfl⟩ | ⟨-, rfl⟩ := exec_rxLoad_cases hx
    all_goals exact ⟨_, _, _, _, rfl⟩
  | setTopic data =>
    obtain ⟨-, rfl⟩ | ⟨-, -, rfl⟩ | ⟨-, -, -, rfl⟩ := exec_setTopic_cases hx
    all_goals exact ⟨_, _, _, _, rfl⟩
  | writeRaw data =>
    obtain ⟨-, rfl⟩ | ⟨-, -, rfl⟩ | ⟨-, -, rfl⟩ := exec_writeRaw_cases hx
    all_goals exact ⟨_, _, _, _, rfl⟩
  | writeVia v =>
    obtain ⟨-, rfl⟩ | ⟨-, -, rfl⟩ |
      ⟨-, -, ans, rest, -, ⟨-, rfl⟩ | ⟨-, rfl⟩ | ⟨bs, -, -, rfl⟩ | ⟨bs, -, -, rfl⟩⟩ := exec_writeVia_cases hx
    all_goals exact ⟨_, _, _, _, rfl⟩
  | finalize kind =>
    obtain ⟨-, rfl⟩ | ⟨-, -, rfl⟩ | ⟨-, -, body, header, -, -, -, rfl⟩ := exec_finalize_cases hx
    all_goals exact ⟨_, _, _, _, rfl⟩
  | asFrame =>
    obtain ⟨-, rfl⟩ | ⟨-, frame, -, -, rfl⟩ := exec_asFrame_cases hx
    all_goals exact ⟨_, _, _, _, rfl⟩
  | getStatus => exact absurd rfl hi

/-- Settles O11, by what the command at the port decodes to. -/
theorem errHoldsTheStatusReturned : Obligations.ErrHoldsTheStatusReturned := by
  refine ⟨rfl, fun s t c rest hin hstep => ?_⟩
  cases hd : decode c with
  | error why =>
    rw [step_error s hin hd] at hstep
    cases hstep
    exact ⟨⟨_, rfl, by rw [if_neg nofun]; rfl⟩, fun _ _ => rfl⟩
  | ok i =>
    rw [step_ok s hin hd] at hstep
    refine ⟨?_, nofun⟩
    by_cases hi : i = .getStatus
    · subst hi
      cases hstep
      exact ⟨_, rfl, by rw [if_pos rfl]; rfl⟩
    · obtain ⟨u, st, vs, bs, rfl⟩ := exec_eq_respond hi hstep
      exact ⟨_, rfl, by rw [if_neg fun h => hi (Except.ok.inj h)]; rfl⟩

/-! ## STATUS (R37) -/

/-- STATUS as its fields side by side (R37). -/
theorem statusWord_eq_append (s : State) :
    s.statusWord =
      (0#23 ++ bitCode s.trunc ++ bitCode s.frameValid ++ bitCode s.hdrValid ++ phaseCode s.phase ++ statusCode s.err :
        BitVec 32) := by
  rw [State.statusWord]
  generalize statusCode s.err = err
  generalize phaseCode s.phase = phase
  generalize bitCode s.hdrValid = hv
  generalize bitCode s.frameValid = fv
  generalize bitCode s.trunc = tr
  apply BitVec.eq_of_getLsbD_eq
  intro j hj
  simp only [BitVec.getLsbD_or, BitVec.getLsbD_shiftLeft, BitVec.truncate_eq_setWidth, BitVec.getLsbD_setWidth,
    BitVec.getLsbD_append]
  interval_cases j <;> simp

@[simp] theorem bitCode_getElem_zero (b : Bool) : (bitCode b)[0] = b := by
  cases b <;> rfl

theorem statusWord_err (s : State) : s.statusWord.extractLsb' 0 4 = statusCode s.err := by
  rw [statusWord_eq_append]
  exact BitVec.extractLsb'_append_eq_right

theorem statusWord_phase (s : State) : s.statusWord.extractLsb' 4 2 = phaseCode s.phase := by
  rw [statusWord_eq_append, BitVec.extractLsb'_append_eq_of_le (by decide)]
  exact BitVec.extractLsb'_append_eq_right

theorem statusWord_validBits (s : State) :
    s.statusWord.getLsbD 6 = s.hdrValid ∧ s.statusWord.getLsbD 7 = s.frameValid ∧ s.statusWord.getLsbD 8 = s.trunc := by
  simp only [statusWord_eq_append, BitVec.getLsbD_append]
  simp

theorem statusWord_resetOf (p : Params) : (State.resetOf p).statusWord = 0 := by
  simp [State.statusWord, State.resetOf, statusCode, phaseCode, bitCode]

theorem statusWord_reserved (s : State) : s.statusWord.extractLsb' 9 23 = 0#23 := by
  rw [statusWord_eq_append, BitVec.extractLsb'_append_eq_of_le (by decide), BitVec.extractLsb'_append_eq_of_le (by decide),
    BitVec.extractLsb'_append_eq_of_le (by decide), BitVec.extractLsb'_append_eq_of_le (by decide)]
  exact BitVec.extractLsb'_append_eq_left

/-- Settles O48, from STATUS as its fields side by side. -/
theorem statusWordFields : Obligations.StatusWordFields := by
  refine ⟨fun s => ?_, statusWord_resetOf, rfl, rfl⟩
  obtain ⟨hhv, hfv, htr⟩ := statusWord_validBits s
  exact ⟨statusWord_err s, statusWord_phase s, hhv, hfv, htr, statusWord_reserved s⟩

end Sys2Proof.Machine

/-!
VERIFY (42_frame_decode.md R156, R157) and the frame that AS_FRAME answers (43_frame_builder.md R192, R195).
-/
namespace Sys2Proof.Machine

variable {s : State}

/-! ## Ill-formed commands (R83) -/

/-- A command with the OPC of a row and another shape than the row's is rejected, whatever the row (R83). -/
theorem illFormedRejected (op : Op) : IllFormedRejected op.code op.operandWords op.takesData op.takesArg := by
  intro s c rest hin hcode hbad
  have hshape : c.shapeError op ≠ none := by
    rw [Ne, Command.shapeError_eq_none]
    rintro ⟨hrsvd, harg, hops, hdata⟩
    rcases hbad with h | ⟨h, h'⟩ | h | ⟨h, h'⟩
    · exact h hrsvd
    · exact harg.elim h (by simp [h'])
    · exact h hops
    · exact hdata.elim h (by simp [h'])
  obtain ⟨why, hd⟩ := decode_eq_error.2 (.inr ⟨op, hcode.symm, hshape⟩)
  exact step_error s hin hd

/-! ## VERIFY -/

theorem memRead_of_holds {sp : Space} {a n : Nat} {bs : List Byte} (hlen : bs.length = n) (hfit : a + bs.length ≤ s.size sp)
    (h : Holds s sp a bs) : s.memRead sp a n = .ok bs := by
  subst hlen
  exact s.memRead_eq_ok.2 ⟨hfit, (holds_iff_readBytes s sp a bs).1 h⟩

/-- Settles O30, along R157's order of the checks. -/
theorem verifyRule : Obligations.VerifyRule := by
  refine ⟨by decide, illFormedRejected .verify, fun s => ?_⟩
  split
  next hf => exact if_pos hf
  next hf =>
  split
  next hm => exact (if_neg hf).trans (if_pos hm)
  next hm =>
  split
  next ht => exact (if_neg hf).trans ((if_neg hm).trans (if_pos ht))
  next ht =>
  rw [Bool.not_eq_false] at hf
  rw [ne_eq, not_not] at hm
  rw [Bool.not_eq_true] at ht
  intro verdict body hlen hfit hbody
  have hdeclared : s.declaredBytes = .ok body := memRead_of_holds hlen hfit hbody
  refine ⟨fun hto hpo htl hpl => ?_, fun topic payload htl hpl htfit hpfit htopic hpayload => ?_⟩
  · have hchecked : s.checkedBytes = .ok body := (State.checkedBytes_of_declared ⟨hto, hpo, htl, hpl⟩).trans hdeclared
    exact exec_verify_of_checkedBytes hf hm ht hchecked
  · have hviewed : s.viewedBytes = .ok (topic ++ payload) := State.viewedBytes_eq_ok.2
      ⟨topic, payload, memRead_of_holds htl htfit htopic, memRead_of_holds hpl hpfit hpayload, rfl⟩
    rcases s.checkedBytes_cases with h | h
    · exact .inl (exec_verify_of_checkedBytes hf hm ht (h.trans hdeclared))
    · exact .inr (exec_verify_of_checkedBytes hf hm ht (h.trans hviewed))

/-! ## AS_FRAME -/

theorem exec_asFrame_of_read (hp : s.phase = .finalized) {frame : List Byte} (hfit : s.frameLen.toNat ≤ s.size .tx)
    (hread : s.tx.readBytes 0 s.frameLen.toNat = some frame) :
    exec .asFrame s = .next (s.respond .ok [s.frameLen] frame) := by
  rw [exec, execAsFrame, if_neg (by simp [hp]), s.withBytes_of_read (sp := .tx) _ (by omega) hread]

theorem parseHeader_encodeHeader_append (h : Header) (rest : List Byte) : parseHeader (encodeHeader h ++ rest) = .ok h := by
  rw [parseHeader, if_neg (by simp [headerBytes]), headerFields_encodeHeader_append]

/-- The bytes of a finalized frame: a header that describes the body after it (R40, R190). -/
theorem BuilderInv.frame_of_finalized (h : BuilderInv s) (hp : s.phase = .finalized) :
    ∃ kind body, (kind = 1 ∨ kind = 2) ∧ body.length = s.bTopicLen.toNat + s.bDataLen.toNat ∧
      s.frameLen.toNat = 16 + body.length ∧ s.frameLen.toNat ≤ s.size .tx ∧
      s.tx.readBytes 0 s.frameLen.toNat = some (encodeHeader (s.frameHeader kind body) ++ body) := by
  obtain ⟨hfl, hcur, hfit, kind, body, hkind, hbody, hheader⟩ := h.finalized hp
  have hlen := s.tx.readBytes_length hbody
  have hread := s.tx.readBytes_append hheader (by rw [Nat.zero_add]; exact hbody)
  rw [hfl]
  rw [show headerBytes + (s.cur.toNat - headerBytes) = s.cur.toNat by omega] at hread
  exact ⟨kind, body, hkind, by omega, by simp only [headerBytes] at *; omega, hfit, hread⟩

/-- Settles O44. -/
theorem finalizedFrameIsConsistent : Obligations.FinalizedFrameIsConsistent := by
  intro s hinv hp
  obtain ⟨kind, body, hkind, hbody, hlen, hfit, hread⟩ := hinv.builder.frame_of_finalized hp
  have hframe := s.tx.readBytes_length hread
  refine ⟨_, _, s.frameHeader kind body, exec_asFrame_of_read hp hfit hread, rfl, ?_, hframe,
    parseHeader_encodeHeader_append _ _, rfl, rfl, rfl, ?_, ?_⟩
  · show _ = 16 + s.bTopicLen.toNat + s.bDataLen.toNat
    omega
  · exact hkind.imp (congrArg (BitVec.zeroExtend 16)) (congrArg (BitVec.zeroExtend 16))
  · exact congrArg crc32 (List.drop_left' (encodeHeader_length _)).symm

end Sys2Proof.Machine

/-!
Byte order, the cursor, and the two operations of a byte space (20_memory.md R52 to R60).
-/
namespace Sys2Proof.Machine

/-! ## Byte order -/

theorem byteAt_append_length_add (before rest : List Byte) (i : Nat) :
    byteAt (before ++ rest) (before.length + i) = byteAt rest i := by
  rw [byteAt, List.getD_append_right _ _ _ _ (Nat.le_add_right _ i), Nat.add_sub_cancel_left, byteAt]

/-- A 32-bit read looks only at the bytes from its offset on (R57). -/
theorem rd32_append_length (before rest : List Byte) : rd32 (before ++ rest) before.length = rd32 rest 0 := by
  have hbyte := byteAt_append_length_add before rest
  have hfirst : byteAt (before ++ rest) before.length = byteAt rest 0 := hbyte 0
  rw [rd32, hfirst, hbyte 1, hbyte 2, hbyte 3, rd32]

/-- A 16-bit read looks only at the bytes from its offset on (R58). -/
theorem rd16_append_length (before rest : List Byte) : rd16 (before ++ rest) before.length = rd16 rest 0 := by
  have hbyte := byteAt_append_length_add before rest
  have hfirst : byteAt (before ++ rest) before.length = byteAt rest 0 := hbyte 0
  rw [rd16, hfirst, hbyte 1, rd16]

theorem rd32_be32_append (v : Word) (after : List Byte) : rd32 (be32 v ++ after) 0 = v := word_of_bytes v

theorem rd16_be16_append (v : Half) (after : List Byte) : rd16 (be16 v ++ after) 0 = v := half_of_bytes v

/-- Settles O13. -/
theorem bigEndianReadInvertsWrite : Obligations.BigEndianReadInvertsWrite := by
  refine ⟨fun v before after => ?_, fun v before after => ?_⟩
  · rw [List.append_assoc, rd32_append_length, rd32_be32_append]
  · rw [List.append_assoc, rd16_append_length, rd16_be16_append]

/-! ## The cursor -/

theorem cursorReadU32_bind {α : Type} (s : List Byte) (pos : Nat) (k : Word × Cursor → Except Status α) :
    (cursorReadU32 ⟨s, pos⟩ >>= k) =
      if s.length < pos + 4 then .error .bufferUnderrun else k (rd32 s pos, ⟨s, pos + 4⟩) := by
  rw [cursorReadU32]
  split <;> rfl

theorem cursorReadU16_bind {α : Type} (s : List Byte) (pos : Nat) (k : Half × Cursor → Except Status α) :
    (cursorReadU16 ⟨s, pos⟩ >>= k) =
      if s.length < pos + 2 then .error .bufferUnderrun else k (rd16 s pos, ⟨s, pos + 2⟩) := by
  rw [cursorReadU16]
  split <;> rfl

/-- Settles O15: the five reads underrun one after the other, so they underrun when the last of them does. -/
theorem cursorReadsTheHeaderExactly : Obligations.CursorReadsTheHeaderExactly := by
  intro s
  simp only [cursorReadHeader, cursorReadU32_bind, cursorReadU16_bind, ← ite_or, Nat.reduceAdd, Nat.zero_add]
  split
  · exact if_neg (by omega)
  · exact if_pos (by omega)

/-! ## MemRead and MemWrite -/

theorem State.mem_putBytes_self (s : State) (sp : Space) (a : Nat) (bs : List Byte) :
    (s.putBytes sp a bs).mem sp = (s.mem sp).writeBytes a bs := by
  cases sp <;> rfl

/-- Settles O18: what MemRead answers is what the range holds. -/
theorem memReadAnswersTheBytes : Obligations.MemReadAnswersTheBytes := by
  intro s sp a n bs
  rw [s.memRead_eq_ok, holds_iff_readBytes]
  constructor
  · rintro ⟨hfit, hread⟩
    have hlen := (s.mem sp).readBytes_length hread
    exact ⟨hfit, hlen, hlen ▸ hread⟩
  · rintro ⟨hfit, rfl, hread⟩
    exact ⟨hfit, hread⟩

/-- Settles O19. -/
theorem memWriteWritesExactlyItsRange : Obligations.MemWriteWritesExactlyItsRange := by
  intro s sp a bs hfit
  refine ⟨s.putBytes sp a bs, s.memWrite_eq_ok.2 ⟨hfit, rfl⟩, ?_, fun sp' hne => s.mem_putBytes_of_ne a bs hne⟩
  rw [s.mem_putBytes_self]
  exact writtenAt_writeBytes _ a bs

end Sys2Proof.Machine

/-!
Issuing a command again (20_memory.md R62): no command but GET_STATUS reads ERR or the response, and what HDR_DECODE and
FRAME_PARSE load is a function of RX and RXLEN, which they leave alone.
-/
namespace Sys2Proof.Machine

variable {i : Instr} {s t : State}

/-- No command but GET_STATUS reads ERR or the response, and each writes both anew. -/
theorem exec_respond (hi : i ≠ .getStatus) (s : State) (st : Status) (vs : List Word) (bs : List Byte) :
    exec i (s.respond st vs bs) = exec i s := by
  cases i
  case getStatus => exact absurd rfl hi
  case finalize kind =>
    -- What MemWrite checks is the space's size, so both runs take the same side of the check.
    have hwrite (u : State) (h : Header) : u.memWrite .tx 0 (encodeHeader h) =
        if headerBytes ≤ u.size .tx then .ok (u.putBytes .tx 0 (encodeHeader h)) else .error (.spaceOverrun .tx) := rfl
    by_cases hfit : headerBytes ≤ s.size .tx
    all_goals
      simp only [exec, execFinalize, hwrite, State.respond_size, hfit, if_true, if_false]
      rfl
  all_goals rfl

/-- A command whose only effect was to answer answers the same again. -/
theorem exec_of_next_respond (hi : i ≠ .getStatus) {st : Status} {vs : List Word} {bs : List Byte}
    (hx : exec i s = .next (s.respond st vs bs)) : exec i (s.respond st vs bs) = .next (s.respond st vs bs) :=
  (exec_respond hi s st vs bs).trans hx

/-- With fewer than 16 bytes in RX the header step rejects the command (R104, R145). -/
theorem State.withRxHeader_of_lt (s : State) (k : Header → Outcome) (hlen : s.rxLen.toNat < headerBytes) :
    s.withRxHeader k = .next (s.clearValid.reject .truncatedHeader) := if_pos hlen

theorem exec_hdrDecode_of_lt (hlen : s.rxLen.toNat < headerBytes) :
    exec .hdrDecode s = .next (s.clearValid.reject .truncatedHeader) := by
  rw [exec, execHdrDecode, s.withRxHeader_of_lt _ hlen]

theorem exec_hdrDecode_of_read (hlen : headerBytes ≤ s.rxLen.toNat) (hsize : headerBytes ≤ s.size .rx) {bs : List Byte}
    (hread : s.rx.readBytes 0 headerBytes = some bs) :
    exec .hdrDecode s = .next ({ (s.clearFrameValid.setHeader (headerFields bs)) with hdrValid := true }.respond .ok
      (headerValues (headerFields bs)) []) := by
  rw [exec, execHdrDecode, s.withRxHeader_of_read _ hlen hsize hread]

theorem exec_frameParse_of_lt (hlen : s.rxLen.toNat < headerBytes) :
    exec .frameParse s = .next (s.clearValid.reject .truncatedHeader) := by
  rw [exec, execFrameParse, s.withRxHeader_of_lt _ hlen]

theorem exec_frameParse_of_read (hlen : headerBytes ≤ s.rxLen.toNat) (hsize : headerBytes ≤ s.size .rx) {bs : List Byte}
    (hread : s.rx.readBytes 0 headerBytes = some bs) :
    exec .frameParse s = .next ((parsedWith s (headerFields bs)).respond
      (if isTruncated (headerFields bs) s.rxLen.toNat then .truncatedFrame else .ok)
      (headerValues (headerFields bs) ++ (parsedWith s (headerFields bs)).viewValues) []) := by
  rw [exec, execFrameParse, s.withRxHeader_of_read _ hlen hsize hread]
  rfl

theorem exec_hdrDecode_again (hx : exec .hdrDecode s = .next t) : exec .hdrDecode t = .next t := by
  obtain ⟨hlen, rfl⟩ | ⟨hlen, hsize, bs, hread, rfl⟩ := exec_hdrDecode_cases hx
  · exact exec_hdrDecode_of_lt (s := s.clearValid.reject .truncatedHeader) hlen
  · rw [exec_respond (i := .hdrDecode) nofun]
    exact exec_hdrDecode_of_read (s := { (s.clearFrameValid.setHeader (headerFields bs)) with hdrValid := true })
      hlen hsize hread

/-- A parse is a function of the header and RXLEN, so parsing again leaves the same state (R143 to R145). -/
theorem parsedWith_parsedWith (s : State) (h : Header) : parsedWith (parsedWith s h) h = parsedWith s h := rfl

theorem exec_frameParse_again (hx : exec .frameParse s = .next t) : exec .frameParse t = .next t := by
  obtain ⟨hlen, rfl⟩ | ⟨hlen, hsize, bs, hread, rfl⟩ := exec_frameParse_cases hx
  · exact exec_frameParse_of_lt (s := s.clearValid.reject .truncatedHeader) hlen
  · rw [exec_respond (i := .frameParse) nofun,
      exec_frameParse_of_read (s := parsedWith s (headerFields bs)) hlen hsize hread, parsedWith_parsedWith]
    rfl

/-- Settles O54, command by command. -/
theorem reissueChangesNothing : Obligations.ReissueChangesNothing := by
  intro i s t hi hx
  cases i with
  | crcFinal | crcOneshot data | hdrEncode magic checksum options topicLen dataLen | getStatus =>
    cases hx
    rfl
  | msgType =>
    obtain ⟨-, rfl⟩ | ⟨-, st, -, rfl⟩ := exec_msgType_cases hx
    all_goals exact exec_of_next_respond (by decide) hx
  | verify =>
    obtain ⟨-, rfl⟩ | ⟨-, -, rfl⟩ | ⟨-, -, -, rfl⟩ | ⟨-, -, -, bs, -, ⟨-, rfl⟩ | ⟨-, rfl⟩⟩ := exec_verify_cases hx
    all_goals exact exec_of_next_respond (by decide) hx
  | asFrame =>
    obtain ⟨-, rfl⟩ | ⟨-, frame, -, -, rfl⟩ := exec_asFrame_cases hx
    all_goals exact exec_of_next_respond (by decide) hx
  | hdrDecode => exact exec_hdrDecode_again hx
  | frameParse => exact exec_frameParse_again hx
  | crcInit | crcUpdate data | rxLoad data | bldReset | setTopic data | writeRaw data | writeVia v | finalize kind =>
    exact absurd hi (by simp [Instr.op])

end Sys2Proof.Machine

/-!
Where the block stops (60_exceptions.md R237): under the invariant every instruction completes, but a WRITE_VIA that waits for a
serializer that gives no answer.
-/
namespace Sys2Proof.Machine

variable {i : Instr} {s : State}

/-! ## The decoder's reads -/

/-- Under R41 the header step finds a header in RX or rejects the command. -/
theorem DecoderInv.withRxHeader_next (h : DecoderInv s) {k : Header → Outcome} (hk : ∀ hdr, ∃ t, k hdr = .next t) :
    ∃ t, s.withRxHeader k = .next t := by
  rcases Nat.lt_or_ge s.rxLen.toNat headerBytes with hlen | hlen
  · exact ⟨_, s.withRxHeader_of_lt k hlen⟩
  · obtain ⟨bs, hread⟩ := exists_readBytes_of_written h.written (Nat.zero_le 0) (by simpa using hlen)
    rw [s.withRxHeader_of_read k hlen (hlen.trans h.rxLenFits) hread]
    exact hk _

/-- Under R41 a frame that is not truncated lies in the loaded bytes as it declares. -/
theorem DecoderInv.declaredEnd_le (h : DecoderInv s) (hf : s.frameValid = true) (ht : s.trunc = false) :
    declaredEnd s.header ≤ s.rxLen.toNat := by
  obtain ⟨-, hoff, hend, -, -, htrunc⟩ := h.views hf
  obtain ⟨htopic, hpayload⟩ := htrunc.1 ht
  have hdeclared : declaredEnd s.header = headerBytes + s.hTopicLen.toNat + s.hDataLen.toNat := rfl
  omega

/-- Under R41 VERIFY can read the bytes it checksums. -/
theorem DecoderInv.exists_checkedBytes (h : DecoderInv s) (hf : s.frameValid = true) (ht : s.trunc = false) :
    ∃ bs, s.checkedBytes = .ok bs := by
  have hend : headerBytes + (s.hTopicLen.toNat + s.hDataLen.toNat) ≤ s.rxLen.toNat := by
    rw [← Nat.add_assoc]
    exact h.declaredEnd_le hf ht
  obtain ⟨bs, hread⟩ := exists_readBytes_of_written h.written (Nat.zero_le headerBytes) hend
  exact ⟨bs, (State.checkedBytes_of_declared (h.viewsDeclared hf ht)).trans
    (s.memRead_eq_ok.2 ⟨hend.trans h.rxLenFits, hread⟩)⟩

theorem DecoderInv.exec_verify_next (h : DecoderInv s) : ∃ t, exec .verify s = .next t := by
  by_cases hf : s.frameValid = false
  · exact ⟨_, if_pos hf⟩
  by_cases hm : s.hMagic ≠ s.params.magic
  · exact ⟨_, (if_neg hf).trans (if_pos hm)⟩
  by_cases ht : s.trunc = true
  · exact ⟨_, (if_neg hf).trans ((if_neg hm).trans (if_pos ht))⟩
  rw [Bool.not_eq_false] at hf
  rw [ne_eq, not_not] at hm
  rw [Bool.not_eq_true] at ht
  obtain ⟨bs, hbs⟩ := h.exists_checkedBytes hf ht
  exact ⟨_, exec_verify_of_checkedBytes hf hm ht hbs⟩

/-! ## The builder's reads -/

/-- FINALIZE of a body that TX holds (R191). -/
theorem exec_finalize_of_read (hp : s.phase = .data) {kind : Byte} (hkind : kind = 1 ∨ kind = 2)
    (hcur : headerBytes ≤ s.cur.toNat) (hfit : s.cur.toNat ≤ s.size .tx) {body : List Byte}
    (hread : s.tx.readBytes headerBytes (s.cur.toNat - headerBytes) = some body) :
    exec (.finalize kind) s = .next ({ (s.putBytes .tx 0 (encodeHeader (s.frameHeader kind body))) with
      frameLen := s.cur, phase := .finalized }.respond .ok [s.cur] []) := by
  have hwrite : s.memWrite .tx 0 (encodeHeader (s.frameHeader kind body)) =
      .ok (s.putBytes .tx 0 (encodeHeader (s.frameHeader kind body))) :=
    s.memWrite_eq_ok.2 ⟨(Nat.zero_add _).trans_le (hcur.trans hfit), rfl⟩
  rw [exec, execFinalize, if_neg (not_not.2 hp), if_neg (by tauto), s.withBytes_of_read (sp := .tx) _ (by omega) hread, hwrite]

theorem BuilderInv.exec_finalize_next (h : BuilderInv s) (kind : Byte) : ∃ t, exec (.finalize kind) s = .next t := by
  by_cases hp : s.phase ≠ .data
  · exact ⟨_, if_pos hp⟩
  by_cases hkind : kind ≠ 1 ∧ kind ≠ 2
  · exact ⟨_, (if_neg hp).trans (if_pos hkind)⟩
  rw [ne_eq, not_not] at hp
  obtain ⟨hcur, hfit, -⟩ := h.data hp
  have hwritten := h.written (by simp [hp])
  obtain ⟨body, hread⟩ := exists_readBytes_of_written hwritten (Nat.le_refl headerBytes)
    (n := s.cur.toNat - headerBytes) (by omega)
  exact ⟨_, exec_finalize_of_read hp (by tauto) (by omega) hfit hread⟩

theorem BuilderInv.exec_asFrame_next (h : BuilderInv s) : ∃ t, exec .asFrame s = .next t := by
  by_cases hp : s.phase ≠ .finalized
  · exact ⟨_, if_pos hp⟩
  rw [ne_eq, not_not] at hp
  obtain ⟨kind, body, -, -, -, hfit, hread⟩ := h.frame_of_finalized hp
  exact ⟨_, exec_asFrame_of_read hp hfit hread⟩

/-! ## WRITE_VIA -/

/-- WRITE_VIA passes its checks and the serializer it asks gives no answer (R187, R237). -/
def State.awaitsSerializer (s : State) : Prop :=
  s.phase = .topic ∧ s.params.hasSerializer = true ∧ s.serAnswers = []

theorem exec_writeVia_of_awaits (h : s.awaitsSerializer) (v : Word) :
    exec (.writeVia v) s = .fault .serializerSilent := by
  obtain ⟨hp, hser, hans⟩ := h
  simp [exec, execWriteVia, hp, hser, hans]

theorem exec_writeVia_of_not_awaits (h : ¬s.awaitsSerializer) (v : Word) : ∃ t, exec (.writeVia v) s = .next t := by
  by_cases hp : s.phase ≠ .topic
  · exact ⟨_, if_pos hp⟩
  by_cases hser : s.params.hasSerializer = false
  · exact ⟨_, (if_neg hp).trans (if_pos hser)⟩
  cases hans : s.serAnswers with
  | nil => exact absurd ⟨not_not.1 hp, by simpa using hser, hans⟩ h
  | cons ans rest =>
    rw [exec, execWriteVia, if_neg hp, if_neg hser, hans]
    exact ⟨_, rfl⟩

/-- Only WRITE_VIA's own command selects it (R82, R83). -/
theorem decode_eq_writeVia {c : Command} {v : Word} : decode c = .ok (.writeVia v) ↔ c = encode (.writeVia v) := by
  constructor
  · intro h
    obtain ⟨op, hcode, hshape, hop⟩ := decode_eq_ok.1 h
    obtain rfl : op = .writeVia := (c.assemble_op op).symm.trans (congrArg Instr.op hop)
    obtain ⟨hrsvd, harg, hops, hdata⟩ := Command.shapeError_eq_none.1 hshape
    obtain ⟨v', hv'⟩ := List.length_eq_one_iff.1 hops
    have hw : c.w0 = commandWord .writeVia 0 := by
      rw [← word_of_fields c.w0]
      exact congrArg₂ (· ++ ·) (congrArg₂ (· ++ ·) hrsvd (harg.resolve_right nofun)) hcode.symm
    have hv : v' = v := by simpa [Command.assemble, Command.operand, hv'] using hop
    obtain ⟨w0, ops, data⟩ := c
    simp only at hw hv' hdata
    rw [encode, plainCommand, hw, hv', hv, hdata.resolve_right nofun]
  · rintro rfl
    refine decode_eq_ok.2 ⟨.writeVia, (encode_opc (.writeVia v)).symm, Command.shapeError_eq_none.2 ?_, rfl⟩
    exact ⟨commandWord_rsvd _ _, .inl (commandWord_arg _ _), rfl, .inl rfl⟩

/-! ## Every instruction and every step -/

/-- Under the invariant an instruction completes unless it waits for the serializer. -/
theorem exec_next_of_inv (h : Inv s) (hi : ∀ v, i = .writeVia v → ¬s.awaitsSerializer) : ∃ t, exec i s = .next t := by
  cases i with
  | crcInit | crcUpdate data | crcFinal | crcOneshot data | hdrEncode magic checksum options topicLen dataLen | msgType
  | rxLoad data | bldReset | setTopic data | writeRaw data | getStatus => exact ⟨_, rfl⟩
  | hdrDecode =>
    rw [exec, execHdrDecode]
    exact h.decoder.withRxHeader_next fun _ => ⟨_, rfl⟩
  | frameParse =>
    rw [exec, execFrameParse]
    exact h.decoder.withRxHeader_next fun _ => ⟨_, rfl⟩
  | verify => exact h.decoder.exec_verify_next
  | finalize kind => exact h.builder.exec_finalize_next kind
  | asFrame => exact h.builder.exec_asFrame_next
  | writeVia v => exact exec_writeVia_of_not_awaits (hi v rfl) v

/-- Settles O59, by what the host's next event is. -/
theorem onlyASilentSerializerStops : Obligations.OnlyASilentSerializerStops := by
  intro s h waits
  refine ⟨fun ⟨⟨v, rest, hin⟩, hawaits⟩ => ?_, fun hwaits => ?_⟩
  · rw [step_ok s hin (decode_eq_writeVia.2 rfl)]
    exact exec_writeVia_of_awaits (s := s.taken rest) hawaits v
  · match hin : s.inbox with
    | [] => exact ⟨_, step_idle s hin⟩
    | .reset :: rest => exact ⟨_, step_reset s hin⟩
    | .command c :: rest =>
      cases hd : decode c with
      | error why => exact ⟨_, step_error s hin hd⟩
      | ok i =>
        rw [step_ok s hin hd]
        refine exec_next_of_inv (h.taken rest) fun v hv hawaits => hwaits ⟨⟨v, rest, ?_⟩, hawaits⟩
        rw [hin, decode_eq_writeVia.1 (hd.trans (congrArg Except.ok hv))]

end Sys2Proof.Machine

/-!
The decoder and the encoder as inverses of each other, the rows of the opcode table, and the commands that select no
instruction (30_encoding.md R79 to R83).
-/
namespace Sys2Proof

variable {c : Command} {op : Op}

/-! ## Decoding what the encoder gives -/

@[simp] theorem encode_rsvd (i : Instr) : (encode i).rsvd = 0 := by
  cases i <;> exact commandWord_rsvd _ _

/-- Only FINALIZE's command has an ARG (R79). -/
theorem encode_arg (i : Instr) : (encode i).arg = 0 ∨ i.op.takesArg = true := by
  cases i
  case finalize kind => exact .inr rfl
  all_goals exact .inl (commandWord_arg _ _)

theorem encode_ops_length (i : Instr) : (encode i).ops.length = i.op.operandWords := by
  cases i <;> rfl

theorem encode_data (i : Instr) : (encode i).data = [] ∨ i.op.takesData = true := by
  cases i
  case crcUpdate | crcOneshot | rxLoad | setTopic | writeRaw => exact .inr rfl
  all_goals exact .inl rfl

/-- The encoder's commands meet none of the grounds (b) to (e) of R83. -/
theorem shapeError_encode (i : Instr) : (encode i).shapeError i.op = none :=
  Command.shapeError_eq_none.2 ⟨encode_rsvd i, encode_arg i, encode_ops_length i, encode_data i⟩

/-- Operand assembly undoes the encoding of the operands (R81). -/
theorem assemble_encode (i : Instr) : (encode i).assemble i.op = i := by
  cases i
  case hdrEncode magic checksum options topicLen dataLen =>
    exact congrArg₂ (Instr.hdrEncode magic checksum · · dataLen) (extract_high options topicLen) (extract_low options topicLen)
  case finalize kind => exact congrArg Instr.finalize (commandWord_arg .finalize kind)
  all_goals rfl

/-- Settles O1. -/
theorem decodeOfEncodeIsTheInstruction : Obligations.DecodeOfEncodeIsTheInstruction := fun i =>
  decode_eq_ok.2 ⟨i.op, (encode_opc i).symm, shapeError_encode i, assemble_encode i⟩

/-! ## Encoding what the decoder gives -/

/-- With RSVD 0 the command word is its opcode and its ARG (R79, R89). -/
theorem Command.w0_eq_commandWord (hcode : op.code = c.opc) (hrsvd : c.rsvd = 0) : c.w0 = commandWord op c.arg := by
  rw [commandWord, hcode]
  exact (word_of_fields c.w0).symm.trans (congrArg (· ++ c.arg ++ c.opc) hrsvd)

theorem encode_assemble_w0 (harg : c.arg = 0 ∨ op.takesArg = true) :
    (encode (c.assemble op)).w0 = commandWord op c.arg := by
  cases op
  case finalize => rfl
  all_goals exact congrArg (commandWord _) (harg.resolve_right nofun).symm

/-- The assembled operands are written back to the operand words they came from (R81). -/
theorem encode_assemble_ops (hops : c.ops.length = op.operandWords) : (encode (c.assemble op)).ops = c.ops := by
  cases op
  case hdrEncode =>
    obtain ⟨x, y, z, u, hc⟩ : ∃ x y z u, c.ops = [x, y, z, u] := by
      match hc : c.ops, hops with
      | [x, y, z, u], _ => exact ⟨x, y, z, u, rfl⟩
    simp [Command.assemble, Command.operand, encode, plainCommand, hc, word_of_halves]
  case writeVia =>
    obtain ⟨v, hc⟩ := List.length_eq_one_iff.1 hops
    simp [Command.assemble, Command.operand, encode, plainCommand, hc]
  all_goals exact (List.length_eq_zero_iff.1 hops).symm

theorem encode_assemble_data (hdata : c.data = [] ∨ op.takesData = true) : (encode (c.assemble op)).data = c.data := by
  cases op
  case crcUpdate | crcOneshot | rxLoad | setTopic | writeRaw => rfl
  all_goals exact (hdata.resolve_right nofun).symm

/-- Settles O2, by the three parts of a command. -/
theorem encodeOfDecodeIsTheCommand : Obligations.EncodeOfDecodeIsTheCommand := by
  intro c i h
  obtain ⟨op, hcode, hshape, rfl⟩ := decode_eq_ok.1 h
  obtain ⟨hrsvd, harg, hops, hdata⟩ := Command.shapeError_eq_none.1 hshape
  calc encode (c.assemble op)
      _ = ⟨(encode (c.assemble op)).w0, (encode (c.assemble op)).ops, (encode (c.assemble op)).data⟩ := rfl
      _ = ⟨c.w0, c.ops, c.data⟩ := by
        rw [encode_assemble_w0 harg, ← Command.w0_eq_commandWord hcode hrsvd, encode_assemble_ops hops,
          encode_assemble_data hdata]

/-! ## The rows of the opcode table (R82) -/

theorem Op.takesArg_eq_true : op.takesArg = true ↔ op = .finalize := by
  cases op <;> decide

theorem fields_inj {a a' : Half} {b b' d d' : Byte} :
    (a ++ b ++ d : BitVec 32) = a' ++ b' ++ d' ↔ a = a' ∧ b = b' ∧ d = d' := by
  refine ⟨fun h => ⟨?_, ?_, ?_⟩, fun ⟨ha, hb, hd⟩ => by rw [ha, hb, hd]⟩
  · rw [← extract_rsvd a b d, h, extract_rsvd]
  · rw [← extract_arg a b d, h, extract_arg]
  · rw [← extract_opc a b d, h, extract_opc]

/-- A row's mask by the fields of the command word: all of RSVD and OPC, and ARG unless the row takes it. -/
theorem Op.tableMask_eq (op : Op) :
    op.tableMask = (BitVec.allOnes 16 ++ (if op.takesArg then 0#8 else BitVec.allOnes 8) ++ BitVec.allOnes 8 : BitVec 32) := by
  rw [Op.tableMask]
  split <;> rfl

theorem Op.tableMatch_eq (op : Op) : op.tableMatch = (0#16 ++ 0#8 ++ op.code : BitVec 32) := by
  cases op <;> rfl

/-- What a row's mask leaves of a command word, field by field. -/
theorem and_tableMask (w : Word) (op : Op) :
    w &&& op.tableMask =
      (w.extractLsb' 16 16 ++ (if op.takesArg then 0#8 else w.extractLsb' 8 8) ++ w.extractLsb' 0 8 : BitVec 32) := by
  conv_lhs => rw [← word_of_fields w]
  rw [op.tableMask_eq, BitVec.and_append, BitVec.and_append, BitVec.and_allOnes, BitVec.and_allOnes]
  split
  · rw [BitVec.and_zero]
  · rw [BitVec.and_allOnes]

theorem matches_row_iff (w : Word) (op : Op) :
    (w &&& op.tableMask) = op.tableMatch ↔
      Op.ofCode (w.extractLsb' 0 8) = some op ∧ w.extractLsb' 16 16 = 0#16 ∧ (op = .finalize ∨ w.extractLsb' 8 8 = 0#8) := by
  have harg : (if op.takesArg then 0#8 else w.extractLsb' 8 8) = 0#8 ↔ op = .finalize ∨ w.extractLsb' 8 8 = 0#8 := by
    rw [← Op.takesArg_eq_true]
    split <;> simp [*]
  rw [and_tableMask, op.tableMatch_eq, fields_inj, harg, Op.ofCode_eq_some]
  tauto

/-- Settles O4: both rows a word matches are the one its OPC names. -/
theorem tableRowMatchesExactlyItsWords : Obligations.TableRowMatchesExactlyItsWords := by
  refine fun w op => ⟨matches_row_iff w op, fun op' h h' => ?_⟩
  obtain ⟨hop, -⟩ := (matches_row_iff w op).1 h
  obtain ⟨hop', -⟩ := (matches_row_iff w op').1 h'
  exact Option.some.inj (hop'.symm.trans hop)

/-- Settles O3. -/
theorem opcodeMapRows : Obligations.OpcodeMapRows := rfl

/-- Settles O5. -/
theorem sampleWordsDecode : Obligations.SampleWordsDecode := by
  unfold Obligations.SampleWordsDecode
  decide

/-! ## Ill-formed commands (R83) -/

/-- The grounds (b) to (e) of R83. -/
theorem Command.shapeError_ne_none :
    c.shapeError op ≠ none ↔
      c.rsvd ≠ 0 ∨ (c.arg ≠ 0 ∧ op ≠ .finalize) ∨ c.ops.length ≠ op.operandWords ∨ (c.data ≠ [] ∧ op.takesData = false) := by
  rw [Ne, Command.shapeError_eq_none, Op.takesArg_eq_true, ← Bool.not_eq_true]
  tauto

namespace Machine

/-- Settles O6: the grounds are those on which the decoder answers an error. -/
theorem illFormedCommandOnlySetsErr : Obligations.IllFormedCommandOnlySetsErr := by
  intro s c rest hin illFormed
  have hground : illFormed ↔ ∃ why, decode c = .error why :=
    (or_congr_right (exists_congr fun _ => and_congr_right fun _ => Command.shapeError_ne_none.symm)).trans
      decode_eq_error.symm
  rw [hground]
  refine ⟨fun ⟨why, hd⟩ => step_error s hin hd, fun hnone => ?_⟩
  cases hd : decode c with
  | error why => exact absurd ⟨why, hd⟩ hnone
  | ok i =>
    obtain ⟨op, hcode, -, rfl⟩ := decode_eq_ok.1 hd
    exact ⟨_, rfl, by rw [c.assemble_op]; exact hcode, step_ok s hin hd⟩

end Machine
end Sys2Proof

/-!
The header as one big-endian number (30_encoding.md R71): each field is the digits that its bytes write.
-/
namespace Sys2Proof.Machine

/-- The number a byte string writes, most significant byte first (R71). -/
def bigEndian (bs : List Byte) : Nat := bs.foldl (fun acc b => acc * 256 + b.toNat) 0

theorem foldl_bigEndian (acc : Nat) (bs : List Byte) :
    bs.foldl (fun acc b => acc * 256 + b.toNat) acc = acc * 256 ^ bs.length + bigEndian bs := by
  induction bs generalizing acc with
  | nil => simp [bigEndian]
  | cons b bs ih =>
    rw [bigEndian, List.foldl_cons, List.foldl_cons, ih, ih (0 * 256 + b.toNat), List.length_cons, pow_succ]
    ring

theorem bigEndian_append (xs ys : List Byte) : bigEndian (xs ++ ys) = bigEndian xs * 256 ^ ys.length + bigEndian ys := by
  rw [bigEndian, List.foldl_append]
  exact foldl_bigEndian (bigEndian xs) ys

theorem bigEndian_be32 (v : Word) : bigEndian (be32 v) = v.toNat := by
  simp only [bigEndian, be32, List.foldl_cons, List.foldl_nil, BitVec.extractLsb'_toNat, Nat.shiftRight_eq_div_pow]
  omega

theorem bigEndian_be16 (v : Half) : bigEndian (be16 v) = v.toNat := by
  simp only [bigEndian, be16, List.foldl_cons, List.foldl_nil, BitVec.extractLsb'_toNat, Nat.shiftRight_eq_div_pow]
  omega

theorem bigEndian_encodeHeader (h : Header) :
    bigEndian (encodeHeader h) =
      (((h.magic.toNat * 2 ^ 32 + h.checksum.toNat) * 2 ^ 16 + h.options.toNat) * 2 ^ 16 + h.topicLen.toNat) * 2 ^ 32 +
        h.dataLen.toNat := by
  simp only [encodeHeader, bigEndian_append, bigEndian_be32, bigEndian_be16, be32_length, be16_length]
  norm_num

theorem drop_eq_byteAt_cons {s : List Byte} {i : Nat} (h : i < s.length) : s.drop i = byteAt s i :: s.drop (i + 1) := by
  rw [List.drop_eq_getElem_cons h, byteAt, List.getD_eq_getElem s 0 h]

/-- The four bytes a 32-bit read is made of (R57). -/
theorem be32_rd32 {s : List Byte} {i : Nat} (h : i + 4 ≤ s.length) : be32 (rd32 s i) = (s.drop i).take 4 := by
  rw [rd32, be32_of_bytes, drop_eq_byteAt_cons (by omega), drop_eq_byteAt_cons (by omega), drop_eq_byteAt_cons (by omega),
    drop_eq_byteAt_cons (by omega)]
  rfl

/-- The two bytes a 16-bit read is made of (R58). -/
theorem be16_rd16 {s : List Byte} {i : Nat} (h : i + 2 ≤ s.length) : be16 (rd16 s i) = (s.drop i).take 2 := by
  rw [rd16, be16_of_bytes, drop_eq_byteAt_cons (by omega), drop_eq_byteAt_cons (by omega)]
  rfl

/-- Encoding the fields of a header's bytes gives the bytes back (R102). -/
theorem encodeHeader_headerFields {s : List Byte} (h : 16 ≤ s.length) : encodeHeader (headerFields s) = s.take 16 := by
  calc encodeHeader (headerFields s)
      _ = s.take 4 ++ (s.drop 4).take 4 ++ (s.drop 8).take 2 ++ (s.drop 10).take 2 ++ (s.drop 12).take 4 := by
        rw [encodeHeader, headerFields, be32_rd32 (by omega), be32_rd32 (by omega), be16_rd16 (by omega),
          be16_rd16 (by omega), be32_rd32 (by omega), List.drop_zero]
      _ = s.take 16 := by
        rw [← List.take_add, ← List.take_add, ← List.take_add, ← List.take_add]

/-- Settles O12: the bytes are the encoding of their fields, and the number of an encoding is its fields side by side. -/
theorem headerFieldsAreBitsOfOneBigEndianNumber : Obligations.HeaderFieldsAreBitsOfOneBigEndianNumber := by
  intro bytes hlen n h
  have hbytes : encodeHeader h = bytes := (encodeHeader_headerFields hlen.ge).trans (List.take_of_length_le hlen.le)
  have hn : n = bigEndian (encodeHeader h) := congrArg bigEndian hbytes.symm
  rw [bigEndian_encodeHeader] at hn
  have hc := h.checksum.isLt
  have ho := h.options.isLt
  have ht := h.topicLen.isLt
  have hd := h.dataLen.isLt
  refine ⟨?_, ?_, ?_, ?_, ?_, rfl⟩ <;> omega

end Sys2Proof.Machine

/-!
The statuses a command answers (60_exceptions.md R221) and the stopping rule of the macros (30_encoding.md R90).
-/
namespace Sys2Proof.Machine

variable {i : Instr} {s t : State}

/-! ## The error catalogue -/

/-- A command whose last act is to respond with a status its opcode's entry lists. -/
theorem catalogued_respond {op : Op} {st : Status} (hst : st ∈ mayAnswer op) (s : State) (vs : List Word) (bs : List Byte) :
    ∃ st' ∈ mayAnswer op, answered (s.respond st vs bs) st' := ⟨st, hst, vs, bs, rfl⟩

/-- Every instruction that completes answers a status the catalogue lists for it (R221). -/
theorem exec_answers_catalogued (hx : exec i s = .next t) : ∃ st ∈ mayAnswer i.op, answered t st := by
  cases i with
  | crcInit | crcUpdate data | crcFinal | crcOneshot data | hdrEncode magic checksum options topicLen dataLen | bldReset
  | getStatus =>
    cases hx
    exact ⟨.ok, List.mem_cons_self, _, _, rfl⟩
  | hdrDecode =>
    obtain ⟨-, rfl⟩ | ⟨-, -, bs, -, rfl⟩ := exec_hdrDecode_cases hx
    all_goals exact catalogued_respond (by simp [mayAnswer, Instr.op]) _ _ _
  | msgType =>
    obtain ⟨-, rfl⟩ | ⟨-, st, rfl | rfl, rfl⟩ := exec_msgType_cases hx
    all_goals exact catalogued_respond (by simp [mayAnswer, Instr.op]) _ _ _
  | frameParse =>
    obtain ⟨-, rfl⟩ | ⟨-, -, bs, -, rfl⟩ := exec_frameParse_cases hx
    · exact catalogued_respond (by simp [mayAnswer, Instr.op]) _ _ _
    · refine catalogued_respond ?_ _ _ _
      split <;> decide
  | verify =>
    obtain ⟨-, rfl⟩ | ⟨-, -, rfl⟩ | ⟨-, -, -, rfl⟩ | ⟨-, -, -, bs, -, ⟨-, rfl⟩ | ⟨-, rfl⟩⟩ := exec_verify_cases hx
    all_goals exact catalogued_respond (by simp [mayAnswer, Instr.op]) _ _ _
  | rxLoad data =>
    obtain ⟨-, rfl⟩ | ⟨-, rfl⟩ := exec_rxLoad_cases hx
    all_goals exact catalogued_respond (by simp [mayAnswer, Instr.op]) _ _ _
  | setTopic data =>
    obtain ⟨-, rfl⟩ | ⟨-, -, rfl⟩ | ⟨-, -, -, rfl⟩ := exec_setTopic_cases hx
    all_goals exact catalogued_respond (by simp [mayAnswer, Instr.op]) _ _ _
  | writeRaw data =>
    obtain ⟨-, rfl⟩ | ⟨-, -, rfl⟩ | ⟨-, -, rfl⟩ := exec_writeRaw_cases hx
    all_goals exact catalogued_respond (by simp [mayAnswer, Instr.op]) _ _ _
  | writeVia v =>
    obtain ⟨-, rfl⟩ | ⟨-, -, rfl⟩ |
      ⟨-, -, ans, rest, -, ⟨-, rfl⟩ | ⟨-, rfl⟩ | ⟨bs, -, -, rfl⟩ | ⟨bs, -, -, rfl⟩⟩ := exec_writeVia_cases hx
    all_goals exact catalogued_respond (by simp [mayAnswer, Instr.op]) _ _ _
  | finalize kind =>
    obtain ⟨-, rfl⟩ | ⟨-, -, rfl⟩ | ⟨-, -, body, header, -, -, -, rfl⟩ := exec_finalize_cases hx
    all_goals exact catalogued_respond (by simp [mayAnswer, Instr.op]) _ _ _
  | asFrame =>
    obtain ⟨-, rfl⟩ | ⟨-, frame, -, -, rfl⟩ := exec_asFrame_cases hx
    all_goals exact catalogued_respond (by simp [mayAnswer, Instr.op]) _ _ _

/-- The catalogue lists INVALID_TOPIC_ENCODING and BUFFER_UNDERRUN for no command (R222). -/
theorem not_mem_mayAnswer (op : Op) : .invalidTopicEncoding ∉ mayAnswer op ∧ .bufferUnderrun ∉ mayAnswer op := by
  cases op <;> decide

/-- Settles O49. -/
theorem answersOnlyCataloguedStatuses : Obligations.AnswersOnlyCataloguedStatuses := by
  intro i s t hx
  obtain ⟨st, hst, hanswered⟩ := exec_answers_catalogued hx
  obtain ⟨hencoding, hunderrun⟩ := not_mem_mayAnswer i.op
  exact ⟨st, hanswered, hst, ne_of_mem_of_not_mem hst hencoding, ne_of_mem_of_not_mem hst hunderrun⟩

/-! ## The stopping rule of the macros -/

/-- A completed command ends its pseudo-command or hands on to the next one (R90). -/
theorem runMacroFrom_cons {m : Macro} {rest : List Instr} {r : Response} (hx : exec i s = .next t) (hr : t.resp = some r) :
    runMacroFrom m (i :: rest) s = if macroGoesOn m i.op r.status then runMacroFrom m rest t else .next t := by
  simp only [runMacroFrom, hx, andThen, hr]

theorem Instr.op_eq_frameParse : i.op = .frameParse ↔ i = .frameParse := by
  cases i <;> simp [Instr.op]

/-- After which statuses a pseudo-command goes on (R90). -/
theorem macroGoesOn_iff (m : Macro) (i : Instr) (st : Status) :
    macroGoesOn m i.op st = true ↔
      st = .ok ∨ ((∃ frame, m = .parseChecked frame) ∧ i = .frameParse ∧ st = .truncatedFrame) := by
  cases m with
  | parseChecked frame => simp [macroGoesOn, Instr.op_eq_frameParse]
  | build topic payload kind => simp [macroGoesOn]
  | crcStream parts => simp [macroGoesOn]

/-- Settles O60. -/
theorem macroStopsAtTheFirstError : Obligations.MacroStopsAtTheFirstError := by
  intro m i rest s t r hx hr goesOn
  have hgoesOn : macroGoesOn m i.op r.status = true ↔ goesOn := macroGoesOn_iff m i r.status
  rw [runMacroFrom_cons hx hr]
  exact ⟨fun h => if_pos (hgoesOn.2 h), fun h => if_neg (mt hgoesOn.1 h)⟩

end Sys2Proof.Machine

/-!
Building a frame in TX (43_frame_builder.md R180, R182, R191, R195): what it holds after each command of
BUILD (30_encoding.md R90).
-/
namespace Sys2Proof.Machine

/-! ## A write next to bytes already there -/

section Adjacent

variable {m : Memory} {a b : Nat} {xs ys : List Byte}

theorem Memory.readBytes_writeBytes_outside {n : Nat} (h : a + n ≤ b ∨ b + ys.length ≤ a) :
    (m.writeBytes b ys).readBytes a n = m.readBytes a n :=
  Memory.readBytes_congr a n fun c h1 h2 => m.read_writeBytes_outside b c ys (by omega)

/-- Bytes written right after a range extend it. -/
theorem Memory.readBytes_writeBytes_after (h : m.readBytes a xs.length = some xs) :
    (m.writeBytes (a + xs.length) ys).readBytes a (xs ++ ys).length = some (xs ++ ys) := by
  rw [List.length_append]
  refine Memory.readBytes_append _ ?_ (m.readBytes_writeBytes _ ys)
  rw [Memory.readBytes_writeBytes_outside (.inl (Nat.le_refl _)), h]

/-- Bytes written right before a range extend it. -/
theorem Memory.readBytes_writeBytes_before (h : m.readBytes (a + xs.length) ys.length = some ys) :
    (m.writeBytes a xs).readBytes a (xs ++ ys).length = some (xs ++ ys) := by
  rw [List.length_append]
  refine Memory.readBytes_append _ (m.readBytes_writeBytes a xs) ?_
  rw [Memory.readBytes_writeBytes_outside (.inr (Nat.le_refl _)), h]

end Adjacent

variable {s t : State} {topic payload : List Byte}

theorem exec_keeps_params {i : Instr} (hx : exec i s = .next t) : t.params = s.params := by
  obtain ⟨-, -, hp, -, -⟩ := exec_framed hx
  exact hp

theorem toNat_ofNat_of_le_size {sp : Space} {n : Nat} (h : n ≤ s.size sp) : (BitVec.ofNat 32 n).toNat = n := by
  rw [BitVec.toNat_ofNat]
  cases sp <;> exact Nat.mod_eq_of_lt (h.trans_lt (BitVec.isLt _))

/-! ## The builder after each command -/

/-- The builder after SET_TOPIC (R180). -/
structure TopicStored (s : State) (topic : List Byte) : Prop where
  phase : s.phase = .topic
  cur : s.cur.toNat = headerBytes + topic.length
  topicLen : s.bTopicLen = BitVec.ofNat 16 topic.length
  bytes : s.tx.readBytes headerBytes topic.length = some topic

/-- The builder after the payload (R182). -/
structure BodyStored (s : State) (topic payload : List Byte) : Prop where
  phase : s.phase = .data
  cur : s.cur.toNat = headerBytes + (topic ++ payload).length
  topicLen : s.bTopicLen = BitVec.ofNat 16 topic.length
  dataLen : s.bDataLen = BitVec.ofNat 32 payload.length
  bytes : s.tx.readBytes headerBytes (topic ++ payload).length = some (topic ++ payload)

/-- The builder after FINALIZE (R191). -/
structure FrameStored (s : State) (frame : List Byte) : Prop where
  phase : s.phase = .finalized
  frameLen : s.frameLen.toNat = frame.length
  bytes : s.tx.readBytes 0 frame.length = some frame

/-- SET_TOPIC of a topic that fits (R180). -/
theorem exec_setTopic_of_fits (hp : s.phase = .empty) (hmax : topic.length ≤ maxTopic)
    (hfit : headerBytes + topic.length ≤ s.size .tx) :
    exec (.setTopic topic) s = .next ({ (s.putBytes .tx headerBytes topic) with
      bTopicLen := BitVec.ofNat 16 topic.length
      cur := BitVec.ofNat 32 (headerBytes + topic.length)
      phase := .topic }.respond .ok [] []) := by
  rw [exec, execSetTopic, if_neg (not_not.2 hp), if_neg (by omega)]

/-- WRITE_RAW of a payload that fits (R182). -/
theorem exec_writeRaw_of_fits (hp : s.phase = .topic) (hfit : s.cur.toNat + payload.length ≤ s.size .tx) :
    exec (.writeRaw payload) s = .next ((s.putPayload payload).respond .ok [] []) := by
  rw [exec, execWriteRaw, if_neg (not_not.2 hp), if_neg (by omega)]

theorem exec_setTopic_stores (hp : s.phase = .empty) (hmax : topic.length ≤ maxTopic)
    (hfit : headerBytes + topic.length ≤ s.size .tx) :
    ∃ t, exec (.setTopic topic) s = .next t ∧ answered t .ok ∧ TopicStored t topic :=
  ⟨_, exec_setTopic_of_fits hp hmax hfit, ⟨_, _, rfl⟩,
    rfl, toNat_ofNat_of_le_size hfit, rfl, s.tx.readBytes_writeBytes headerBytes topic⟩

theorem TopicStored.exec_writeRaw (h : TopicStored s topic)
    (hfit : headerBytes + topic.length + payload.length ≤ s.size .tx) :
    ∃ t, exec (.writeRaw payload) s = .next t ∧ answered t .ok ∧ BodyStored t topic payload := by
  rw [← h.cur] at hfit
  refine ⟨_, exec_writeRaw_of_fits h.phase hfit, ⟨_, _, rfl⟩, rfl, ?_, h.topicLen, rfl, ?_⟩
  · rw [State.respond_cur, State.putPayload_cur, toNat_ofNat_of_le_size hfit, h.cur, List.length_append, Nat.add_assoc]
  · rw [State.respond_tx, State.putPayload_tx, h.cur]
    exact Memory.readBytes_writeBytes_after h.bytes

theorem BodyStored.exec_finalize (h : BodyStored s topic payload) {kind : Byte} (hkind : kind = 1 ∨ kind = 2)
    (hfit : headerBytes + (topic ++ payload).length ≤ s.size .tx) :
    ∃ t, exec (.finalize kind) s = .next t ∧ answered t .ok ∧
      FrameStored t (encodeHeader (s.frameHeader kind (topic ++ payload)) ++ (topic ++ payload)) := by
  have hcur := h.cur
  have hbody : s.cur.toNat - headerBytes = (topic ++ payload).length := by omega
  refine ⟨_, exec_finalize_of_read h.phase hkind (by omega) (by omega) (by rw [hbody]; exact h.bytes), ⟨_, _, rfl⟩,
    rfl, ?_, ?_⟩
  · rw [List.length_append]
    exact hcur
  · refine Memory.readBytes_writeBytes_before ?_
    rw [encodeHeader_length]
    exact h.bytes

theorem FrameStored.exec_asFrame {frame : List Byte} (h : FrameStored s frame) (hfit : frame.length ≤ s.size .tx) :
    exec .asFrame s = .next (s.respond .ok [s.frameLen] frame) :=
  exec_asFrame_of_read h.phase (h.frameLen.trans_le hfit) (by rw [h.frameLen, h.bytes])

/-! ## The pseudo-command BUILD -/

/-- The commands `is`, issued one after the other in `s`, all complete with OK and lead to `t`. -/
def RunsOk : List Instr → State → State → Prop
  | [], s, t => s = t
  | i :: is, s, t => ∃ u, exec i s = .next u ∧ answered u .ok ∧ RunsOk is u t

/-- A pseudo-command whose commands all answer OK runs to its end (R90). -/
theorem RunsOk.runMacroFrom_eq (m : Macro) {is : List Instr} (h : RunsOk is s t) : runMacroFrom m is s = .next t := by
  induction is generalizing s with
  | nil => exact congrArg _ h
  | cons i is ih =>
    obtain ⟨u, hx, ⟨values, rdata, hr⟩, hrest⟩ := h
    rw [runMacroFrom_cons hx hr, if_pos ((macroGoesOn_iff m i .ok).2 (.inl rfl))]
    exact ih hrest

/-- The frame of a topic, a payload and a kind (R190). -/
def builtFrame (p : Params) (topic payload : List Byte) (kind : Byte) : List Byte :=
  encodeHeader ⟨p.magic, crc32 (topic ++ payload), kind.zeroExtend 16, BitVec.ofNat 16 topic.length,
    BitVec.ofNat 32 payload.length⟩ ++ topic ++ payload

theorem builtFrame_length (p : Params) (topic payload : List Byte) (kind : Byte) :
    (builtFrame p topic payload kind).length = 16 + topic.length + payload.length := by
  rw [builtFrame, List.length_append, List.length_append, encodeHeader_length]

theorem BodyStored.frame_eq (h : BodyStored s topic payload) (kind : Byte) :
    encodeHeader (s.frameHeader kind (topic ++ payload)) ++ (topic ++ payload) = builtFrame s.params topic payload kind := by
  rw [State.frameHeader, h.topicLen, h.dataLen, builtFrame, List.append_assoc]

/-- The commands of BUILD all answer OK, and the last one answers the frame (R194, R196). -/
theorem runsOk_build (s : State) {topic payload : List Byte} {kind : Byte} (hmax : topic.length ≤ maxTopic)
    (hfit : headerBytes + topic.length + payload.length ≤ s.size .tx) (hkind : kind = 1 ∨ kind = 2) :
    ∃ t n, RunsOk (macroExpansion (.build topic payload kind)) s t ∧ n.toNat = headerBytes + topic.length + payload.length ∧
      t.resp = some ⟨.ok, [n], builtFrame s.params topic payload kind⟩ := by
  obtain ⟨t₁, hx₁, hok₁, hempty⟩ : ∃ t, exec .bldReset s = .next t ∧ answered t .ok ∧ t.phase = .empty :=
    ⟨_, rfl, ⟨_, _, rfl⟩, rfl⟩
  have hp₁ := exec_keeps_params hx₁
  rw [State.size_tx, ← hp₁] at hfit
  obtain ⟨t₂, hx₂, hok₂, htopic⟩ := exec_setTopic_stores hempty hmax ((Nat.le_add_right _ _).trans hfit)
  have hp₂ := exec_keeps_params hx₂
  rw [← hp₂] at hfit
  obtain ⟨t₃, hx₃, hok₃, hbody⟩ := htopic.exec_writeRaw hfit
  have hp₃ := exec_keeps_params hx₃
  rw [← hp₃] at hfit
  obtain ⟨t₄, hx₄, hok₄, hframe⟩ := hbody.exec_finalize hkind (by rw [List.length_append, ← Nat.add_assoc]; exact hfit)
  have hp₄ := exec_keeps_params hx₄
  rw [hbody.frame_eq, hp₃, hp₂, hp₁] at hframe
  rw [← hp₄] at hfit
  have hlen := builtFrame_length s.params topic payload kind
  have hx₅ := hframe.exec_asFrame (hlen.trans_le hfit)
  exact ⟨_, t₄.frameLen,
    ⟨t₁, hx₁, hok₁, t₂, hx₂, hok₂, t₃, hx₃, hok₃, t₄, hx₄, hok₄, _, hx₅, ⟨_, _, rfl⟩, rfl⟩,
    hframe.frameLen.trans hlen, rfl⟩

/-- Settles O45. -/
theorem buildReturnsExactlyTheFrame : Obligations.BuildReturnsExactlyTheFrame := by
  intro s topic payload kind hmax hfit hkind
  obtain ⟨t, n, hrun, hn, hresp⟩ := runsOk_build s hmax hfit hkind
  exact ⟨t, n, hrun.runMacroFrom_eq _, hn, hresp⟩

end Sys2Proof.Machine

/-!
HDR_ENCODE and HDR_DECODE, and the round trip of the header functions (40_header_codec.md R102 to R104).
-/
namespace Sys2Proof.Machine

/-- Settles O14: the two functions are inverse on the 16 bytes of a header. -/
theorem headerCodecRoundTrip : Obligations.HeaderCodecRoundTrip := by
  refine ⟨fun h => ?_, fun s hlen => ⟨headerFields s, if_neg hlen.not_gt, encodeHeader_headerFields hlen⟩⟩
  rw [← List.append_nil (encodeHeader h)]
  exact parseHeader_encodeHeader_append h []

/-- Settles O25: the command is the one the encoder gives, with OPS[2] put together from its halves (R81). -/
theorem hdrEncodeRule : Obligations.HdrEncodeRule := by
  refine ⟨fun m c w d => ?_, illFormedRejected .hdrEncode, fun _ _ _ _ _ _ => rfl⟩
  have hencode : encode (.hdrEncode m c (w.extractLsb' 16 16) (w.extractLsb' 0 16) d) =
      ⟨0x00000010, [m, c, w, d], []⟩ := by
    rw [encode, word_of_halves]
    rfl
  exact hencode ▸ decodeOfEncodeIsTheInstruction _

/-- Settles O26, by whether RX holds a header. -/
theorem hdrDecodeRule : Obligations.HdrDecodeRule := by
  refine ⟨by decide, illFormedRejected .hdrDecode, fun s => ⟨exec_hdrDecode_of_lt, fun hlen hsize bytes hbytes hread => ?_⟩⟩
  rw [holds_iff_readBytes, hbytes] at hread
  exact exec_hdrDecode_of_read hlen hsize hread

end Sys2Proof.Machine

/-!
The decoder's commands in two states that agree on the decoder (70_reset_and_hazards.md R259): each operation they are made of
gives the same there.
-/
namespace Sys2Proof.Machine

variable {s t : State}

/-! ## What the decoder's commands read -/

theorem SameDecoder.headerRegs (h : SameDecoder s t) :
    t.hMagic = s.hMagic ∧ t.hChecksum = s.hChecksum ∧ t.hOptions = s.hOptions ∧ t.hTopicLen = s.hTopicLen ∧
      t.hDataLen = s.hDataLen := by
  obtain ⟨-, -, -, -, -, hheader, -, -⟩ := h
  simpa only [State.header, Header.mk.injEq] using hheader

theorem SameDecoder.viewRegs (h : SameDecoder s t) :
    t.vTopicOff = s.vTopicOff ∧ t.vTopicLen = s.vTopicLen ∧ t.vPayloadOff = s.vPayloadOff ∧
      t.vPayloadLen = s.vPayloadLen := by
  obtain ⟨-, -, -, -, -, -, hviews, -⟩ := h
  simpa only [State.viewValues, List.cons.injEq, and_true] using hviews

theorem SameDecoder.size_rx (h : SameDecoder s t) : t.size .rx = s.size .rx := by
  obtain ⟨hparams, -⟩ := h
  rw [State.size_rx, hparams, State.size_rx]

theorem SameDecoder.memRead_rx (h : SameDecoder s t) (a n : Nat) : t.memRead .rx a n = s.memRead .rx a n := by
  have hmem : t.mem .rx = s.mem .rx := by
    obtain ⟨-, -, -, -, -, -, -, hrx⟩ := h
    exact hrx
  simp only [State.memRead, h.size_rx, hmem]

theorem SameDecoder.checkedBytes (h : SameDecoder s t) : t.checkedBytes = s.checkedBytes := by
  obtain ⟨-, -, -, htopicLen, hdataLen⟩ := h.headerRegs
  obtain ⟨hto, htl, hpo, hpl⟩ := h.viewRegs
  simp only [State.checkedBytes, State.viewedBytes, State.topicView, State.payloadView, State.declaredBytes,
    State.viewsDeclared, h.memRead_rx, htopicLen, hdataLen, hto, htl, hpo, hpl]

/-! ## What they change -/

theorem SameDecoder.clearValid (h : SameDecoder s t) : SameDecoder s.clearValid t.clearValid := by
  obtain ⟨hparams, hlen, -, -, -, hheader, hviews, hrx⟩ := h
  exact ⟨hparams, hlen, rfl, rfl, rfl, hheader, hviews, hrx⟩

theorem SameDecoder.decoded (h : SameDecoder s t) (hdr : Header) :
    SameDecoder { (s.clearFrameValid.setHeader hdr) with hdrValid := true }
      { (t.clearFrameValid.setHeader hdr) with hdrValid := true } := by
  obtain ⟨hparams, hlen, -, -, -, -, hviews, hrx⟩ := h
  exact ⟨hparams, hlen, rfl, rfl, rfl, rfl, hviews, hrx⟩

theorem SameDecoder.parsed (h : SameDecoder s t) (hdr : Header) : SameDecoder (parsedWith s hdr) (parsedWith t hdr) := by
  obtain ⟨hparams, hlen, -, -, -, -, -, hrx⟩ := h
  refine ⟨hparams, hlen, rfl, rfl, ?_, rfl, ?_, hrx⟩
  · simp only [parsedWith, hlen]
  · simp only [parsedWith, State.setViews, State.viewValues, State.setHeader_rxLen, hlen]

theorem SameDecoder.rxLoad (h : SameDecoder s t) (data : List Byte) (n : Word) :
    SameDecoder { (s.putBytes .rx 0 data).clearValid with rxLen := n }
      { (t.putBytes .rx 0 data).clearValid with rxLen := n } := by
  obtain ⟨hparams, -, -, -, -, hheader, hviews, hrx⟩ := h
  exact ⟨hparams, rfl, rfl, rfl, rfl, hheader, hviews, congrArg (fun m => Memory.writeBytes m 0 data) hrx⟩

/-! ## Outcomes -/

theorem SameDecoder.respond (h : SameDecoder s t) (st : Status) (vs : List Word) (bs : List Byte) :
    OutcomesAgree SameDecoder (.next (s.respond st vs bs)) (.next (t.respond st vs bs)) := ⟨h, rfl⟩

theorem SameDecoder.reject (h : SameDecoder s t) (st : Status) :
    OutcomesAgree SameDecoder (.next (s.reject st)) (.next (t.reject st)) := h.respond st [] []

/-- The header step gives two such states the same header (R104, R145). -/
theorem SameDecoder.withRxHeader (h : SameDecoder s t) {k l : Header → Outcome}
    (hkl : ∀ hdr, OutcomesAgree SameDecoder (k hdr) (l hdr)) :
    OutcomesAgree SameDecoder (s.withRxHeader k) (t.withRxHeader l) := by
  have ⟨_, hlen, _⟩ := h
  simp only [State.withRxHeader, State.withBytes, h.memRead_rx, hlen]
  split
  · exact h.clearValid.reject _
  · cases s.memRead .rx 0 headerBytes with
    | ok bs => exact hkl _
    | error f => rfl

theorem SameDecoder.verdict (h : SameDecoder s t) (bs : List Byte) :
    OutcomesAgree SameDecoder (.next (s.verdict bs)) (.next (t.verdict bs)) := by
  obtain ⟨-, hchecksum, -, -, -⟩ := h.headerRegs
  rw [State.verdict, State.verdict, hchecksum]
  split <;> exact h.respond _ _ _

/-! ## The commands -/

theorem SameDecoder.exec_hdrDecode (h : SameDecoder s t) :
    OutcomesAgree SameDecoder (exec .hdrDecode s) (exec .hdrDecode t) :=
  h.withRxHeader fun hdr => (h.decoded hdr).respond _ _ _

theorem exec_frameParse_eq (s : State) :
    exec .frameParse s = s.withRxHeader fun hdr => .next ((parsedWith s hdr).respond
      (if isTruncated hdr s.rxLen.toNat then .truncatedFrame else .ok)
      (headerValues hdr ++ (parsedWith s hdr).viewValues) []) := rfl

theorem SameDecoder.exec_frameParse (h : SameDecoder s t) :
    OutcomesAgree SameDecoder (exec .frameParse s) (exec .frameParse t) := by
  rw [exec_frameParse_eq, exec_frameParse_eq]
  refine h.withRxHeader fun hdr => ?_
  have hparsed := h.parsed hdr
  have ⟨_, hlen, _⟩ := h
  have ⟨_, _, _, _, _, _, hviews, _⟩ := hparsed
  rw [hviews, hlen]
  exact hparsed.respond _ _ _

theorem SameDecoder.exec_msgType (h : SameDecoder s t) :
    OutcomesAgree SameDecoder (exec .msgType s) (exec .msgType t) := by
  have ⟨hparams, _, hvalid, _⟩ := h
  obtain ⟨-, -, hoptions, -, -⟩ := h.headerRegs
  simp only [exec, execMsgType, hparams, hvalid, hoptions]
  split
  · exact h.reject _
  · cases kindOf s.params.kindMask s.hOptions <;> exact h.respond _ _ _

theorem SameDecoder.exec_verify (h : SameDecoder s t) :
    OutcomesAgree SameDecoder (exec .verify s) (exec .verify t) := by
  have ⟨hparams, _, _, hvalid, htrunc, _⟩ := h
  obtain ⟨hmagic, -, -, -, -⟩ := h.headerRegs
  simp only [exec, execVerify, hparams, hvalid, htrunc, hmagic, h.checkedBytes]
  split
  · exact h.reject .sequenceError
  split
  · exact h.reject .invalidMagic
  split
  · exact h.reject .truncatedFrame
  cases s.checkedBytes with
  | ok bs => exact h.verdict bs
  | error f => rfl

theorem SameDecoder.exec_rxLoad (h : SameDecoder s t) (data : List Byte) :
    OutcomesAgree SameDecoder (exec (.rxLoad data) s) (exec (.rxLoad data) t) := by
  simp only [exec, execRxLoad, h.size_rx]
  split
  · exact h.reject _
  · exact (h.rxLoad data _).respond _ _ _

/-- Settles O55, command by command. -/
theorem decoderIsIndependentOfTheRest : Obligations.DecoderIsIndependentOfTheRest := by
  intro i s t hi h
  cases i with
  | hdrDecode => exact h.exec_hdrDecode
  | frameParse => exact h.exec_frameParse
  | msgType => exact h.exec_msgType
  | verify => exact h.exec_verify
  | rxLoad data => exact h.exec_rxLoad data
  | crcInit | crcUpdate | crcFinal | crcOneshot | hdrEncode | bldReset | setTopic | writeRaw | writeVia | finalize | asFrame
  | getStatus => exact absurd hi (by simp [Instr.op, decoderOps])

end Sys2Proof.Machine

/-!
The table-driven CRC (41_checksum.md R123): where the low bits of a register are 0, the iterations of R121 only shift it.
-/
namespace Sys2Proof.Machine

theorem crcBit_xor_of_even {x : Word} (hx : x.getLsbD 0 = false) (y : Word) :
    crcBit (x ^^^ y) = (x >>> 1) ^^^ crcBit y := by
  have hlow : (x ^^^ y).getLsbD 0 = y.getLsbD 0 := by rw [BitVec.getLsbD_xor, hx, Bool.false_xor]
  rw [crcBit, crcBit, hlow, BitVec.ushiftRight_xor_distrib]
  split
  · exact BitVec.xor_assoc _ _ _
  · rfl

/-- Bits above the low `n` only shift in `n` iterations: each iteration tests the lowest bit alone. -/
theorem crcBits_xor_of_low_zero {n : Nat} {x : Word} (hx : ∀ i < n, x.getLsbD i = false) (y : Word) :
    crcBits n (x ^^^ y) = (x >>> n) ^^^ crcBits n y := by
  induction n generalizing x y with
  | zero => rfl
  | succ n ih =>
    have hx' : ∀ i < n, (x >>> 1).getLsbD i = false := fun i hi => by
      rw [BitVec.getLsbD_ushiftRight]
      exact hx _ (by omega)
    calc crcBits (n + 1) (x ^^^ y)
        _ = crcBits n ((x >>> 1) ^^^ crcBit y) := congrArg (crcBits n) (crcBit_xor_of_even (hx 0 n.succ_pos) y)
        _ = (x >>> 1 >>> n) ^^^ crcBits n (crcBit y) := ih hx' _
        _ = (x >>> (n + 1)) ^^^ crcBits (n + 1) y := by rw [← BitVec.shiftRight_add, Nat.add_comm 1 n]; rfl

theorem zeroExtend_byte_shift (b : Byte) : (b.zeroExtend 32 : Word) >>> 8 = 0#32 := by
  apply BitVec.eq_of_toNat_eq
  rw [BitVec.toNat_ushiftRight, BitVec.toNat_setWidth, Nat.shiftRight_eq_div_pow]
  exact Nat.div_eq_of_lt ((Nat.mod_le _ _).trans_lt b.isLt)

/-- Bits 7:0 of a register, the index into the table (R123). -/
def lowByte (x : Word) : Word := (x.extractLsb' 0 8).zeroExtend 32

theorem getLsbD_xor_lowByte (x : Word) {i : Nat} (hi : i < 8) : (x ^^^ lowByte x).getLsbD i = false := by
  rw [lowByte, BitVec.getLsbD_xor, BitVec.getLsbD_setWidth, BitVec.getLsbD_extractLsb', Nat.zero_add]
  simp [hi, hi.trans (by decide : 8 < 32)]

/-- Eight iterations by the table: the upper bytes shift, and the lowest byte selects what they are combined with. -/
theorem crcBits_eight (x : Word) : crcBits 8 x = (x >>> 8) ^^^ crcBits 8 (lowByte x) := by
  calc crcBits 8 x
      _ = crcBits 8 ((x ^^^ lowByte x) ^^^ lowByte x) := by rw [BitVec.xor_assoc, BitVec.xor_self, BitVec.xor_zero]
      _ = ((x ^^^ lowByte x) >>> 8) ^^^ crcBits 8 (lowByte x) :=
        crcBits_xor_of_low_zero (fun _ => getLsbD_xor_lowByte x) _
      _ = (x >>> 8) ^^^ crcBits 8 (lowByte x) := by
        rw [BitVec.ushiftRight_xor_distrib, lowByte, zeroExtend_byte_shift, BitVec.xor_zero]

/-- One byte by the table (R123). -/
theorem crcStep_eq_table (r : Word) (b : Byte) :
    crcStep r b = (r >>> 8) ^^^ crcBits 8 (lowByte (r ^^^ b.zeroExtend 32)) := by
  rw [crcStep, crcBits_eight, BitVec.ushiftRight_xor_distrib, zeroExtend_byte_shift, BitVec.xor_zero]

/-- Settles O16: the two functions fold steps that are equal. -/
theorem bitwiseCrcEqualsTableDriven : Obligations.BitwiseCrcEqualsTableDriven := fun c s =>
  congrArg (fun step => s.foldl step c) (funext₂ crcStep_eq_table)

/-- Settles O17. -/
theorem crcCheckValue : Obligations.CrcCheckValue := by
  unfold Obligations.CrcCheckValue
  decide +kernel

end Sys2Proof.Machine

/-!
The checksum unit's commands (41_checksum.md R124 to R128).
-/
namespace Sys2Proof.Machine

/-- Settles O20. -/
theorem crcInitRule : Obligations.CrcInitRule :=
  ⟨decodeOfEncodeIsTheInstruction .crcInit, illFormedRejected .crcInit, fun _ => rfl⟩

/-- Settles O21. -/
theorem crcUpdateRule : Obligations.CrcUpdateRule :=
  ⟨fun data => decodeOfEncodeIsTheInstruction (.crcUpdate data), illFormedRejected .crcUpdate, fun _ _ => rfl⟩

/-- Settles O22. -/
theorem crcFinalRule : Obligations.CrcFinalRule :=
  ⟨decodeOfEncodeIsTheInstruction .crcFinal, illFormedRejected .crcFinal, fun _ => rfl⟩

/-- Settles O23. -/
theorem crcOneshotRule : Obligations.CrcOneshotRule :=
  ⟨fun data => decodeOfEncodeIsTheInstruction (.crcOneshot data), illFormedRejected .crcOneshot, fun _ _ => rfl⟩

/-- A run of CRC_UPDATEs completes with its strings fed into CRC in order (R122, R125). -/
theorem execAll_crcUpdates (parts : List (List Byte)) (s : State) :
    ∃ t, execAll (parts.map .crcUpdate) s = .next t ∧ t.crc = parts.foldl crcUpdate s.crc := by
  induction parts generalizing s with
  | nil => exact ⟨s, rfl, rfl⟩
  | cons p ps ih => exact ih ({ s with crc := crcUpdate s.crc p }.respond .ok [] [])

/-- Settles O24: the stream's register is that of the parts fed in order, which is that of their concatenation. -/
theorem streamingEqualsOneshot : Obligations.StreamingEqualsOneshot := by
  intro s parts
  obtain ⟨t, hrun, hcrc⟩ := execAll_crcUpdates parts ({ s with crc := crcInitial }.respond .ok [] [])
  have hvalue : crcFinish t.crc = crc32 parts.flatten :=
    congrArg crcFinish (hcrc.trans (crcUpdate_flatten crcInitial parts))
  have hstream : execAll (.crcInit :: (parts.map .crcUpdate ++ [.crcFinal])) s =
      .next (t.respond .ok [crcFinish t.crc] []) := by
    rw [execAll_cons_of_next s rfl, execAll_append, hrun]
    rfl
  have hresp : (t.respond .ok [crcFinish t.crc] []).resp = some ⟨.ok, [crc32 parts.flatten], []⟩ := by
    rw [State.respond_resp, hvalue]
  exact ⟨_, _, hstream, rfl, hresp, hresp⟩

end Sys2Proof.Machine

/-!
The builder's commands in two states that agree on the builder (41_checksum.md R130; 70_reset_and_hazards.md R259): each
operation they are made of gives the same there.
-/
namespace Sys2Proof.Machine

variable {s t : State}

/-! ## What the builder's commands read -/

theorem SameBuilder.size_tx (h : SameBuilder s t) : t.size .tx = s.size .tx := by
  obtain ⟨hparams, -⟩ := h
  rw [State.size_tx, hparams, State.size_tx]

theorem SameBuilder.frameHeader (h : SameBuilder s t) (kind : Byte) (body : List Byte) :
    t.frameHeader kind body = s.frameHeader kind body := by
  obtain ⟨hparams, -, -, htopicLen, hdataLen, -⟩ := h
  simp only [State.frameHeader, hparams, htopicLen, hdataLen]

theorem SameBuilder.memRead_tx (h : SameBuilder s t) (a n : Nat) : t.memRead .tx a n = s.memRead .tx a n := by
  have hmem : t.mem .tx = s.mem .tx := by
    obtain ⟨-, -, -, -, -, -, htx, -⟩ := h
    exact htx
  simp only [State.memRead, h.size_tx, hmem]

/-! ## What they change -/

theorem SameBuilder.putTx (h : SameBuilder s t) (a : Nat) (bs : List Byte) :
    SameBuilder (s.putBytes .tx a bs) (t.putBytes .tx a bs) := by
  obtain ⟨hparams, hphase, hcur, htopicLen, hdataLen, hframeLen, htx, hanswers⟩ := h
  exact ⟨hparams, hphase, hcur, htopicLen, hdataLen, hframeLen, congrArg (·.writeBytes a bs) htx, hanswers⟩

theorem SameBuilder.setTopic (h : SameBuilder s t) (topicLen : Half) (cur : Word) :
    SameBuilder { s with bTopicLen := topicLen, cur := cur, phase := .topic }
      { t with bTopicLen := topicLen, cur := cur, phase := .topic } := by
  obtain ⟨hparams, -, -, -, hdataLen, hframeLen, htx, hanswers⟩ := h
  exact ⟨hparams, rfl, rfl, rfl, hdataLen, hframeLen, htx, hanswers⟩

theorem SameBuilder.putPayload (h : SameBuilder s t) (bs : List Byte) :
    SameBuilder (s.putPayload bs) (t.putPayload bs) := by
  have ⟨_, _, hcur, _⟩ := h
  simp only [State.putPayload, hcur]
  obtain ⟨hparams, -, -, htopicLen, -, hframeLen, htx, hanswers⟩ := h.putTx s.cur.toNat bs
  exact ⟨hparams, rfl, rfl, htopicLen, rfl, hframeLen, htx, hanswers⟩

theorem SameBuilder.askSerializer (h : SameBuilder s t) (v : Word) (rest : List SerAnswer) :
    SameBuilder (s.askSerializer v rest) (t.askSerializer v rest) := by
  have hsize := h.size_tx
  obtain ⟨hparams, hphase, hcur, htopicLen, hdataLen, hframeLen, htx, -⟩ := h
  refine ⟨hparams, hphase, hcur, htopicLen, hdataLen, hframeLen, ?_, rfl⟩
  simp only [State.askSerializer, hcur, hsize, htx]

theorem SameBuilder.finalize (h : SameBuilder s t) (frameLen : Word) :
    SameBuilder { s with frameLen := frameLen, phase := .finalized }
      { t with frameLen := frameLen, phase := .finalized } := by
  obtain ⟨hparams, -, hcur, htopicLen, hdataLen, -, htx, hanswers⟩ := h
  exact ⟨hparams, rfl, hcur, htopicLen, hdataLen, rfl, htx, hanswers⟩

/-! ## Outcomes -/

theorem SameBuilder.respond (h : SameBuilder s t) (st : Status) (vs : List Word) (bs : List Byte) :
    OutcomesAgree SameBuilder (.next (s.respond st vs bs)) (.next (t.respond st vs bs)) := ⟨h, rfl⟩

theorem SameBuilder.reject (h : SameBuilder s t) (st : Status) :
    OutcomesAgree SameBuilder (.next (s.reject st)) (.next (t.reject st)) := h.respond st [] []

/-- A command that reads TX goes on in two such states with the same bytes, or stops in both. -/
theorem SameBuilder.withBytes_tx (h : SameBuilder s t) (a n : Nat) {k l : List Byte → Outcome}
    (hkl : ∀ bs, OutcomesAgree SameBuilder (k bs) (l bs)) :
    OutcomesAgree SameBuilder (s.withBytes .tx a n k) (t.withBytes .tx a n l) := by
  simp only [State.withBytes, h.memRead_tx]
  cases s.memRead .tx a n with
  | ok bs => exact hkl bs
  | error f => rfl

theorem SameBuilder.takeAnswer (h : SameBuilder s t) (ans : SerAnswer) :
    OutcomesAgree SameBuilder (.next (s.takeAnswer ans)) (.next (t.takeAnswer ans)) := by
  cases ans with
  | noFit => exact h.reject _
  | unrepresentable => exact h.reject _
  | wrote bs =>
    have ⟨_, _, hcur, _⟩ := h
    simp only [State.takeAnswer, h.size_tx, hcur]
    split
    · exact h.reject _
    · exact (h.putPayload bs).respond _ _ _

/-! ## The commands -/

theorem SameBuilder.exec_bldReset (h : SameBuilder s t) :
    OutcomesAgree SameBuilder (exec .bldReset s) (exec .bldReset t) := by
  obtain ⟨hparams, -, -, -, -, -, htx, hanswers⟩ := h
  exact ⟨⟨hparams, rfl, rfl, rfl, rfl, rfl, htx, hanswers⟩, rfl⟩

theorem SameBuilder.exec_setTopic (h : SameBuilder s t) (data : List Byte) :
    OutcomesAgree SameBuilder (exec (.setTopic data) s) (exec (.setTopic data) t) := by
  have ⟨_, hphase, _⟩ := h
  simp only [exec, execSetTopic, hphase, h.size_tx]
  split
  · exact h.reject .sequenceError
  split
  · exact h.reject .capacityExceeded
  exact ((h.putTx headerBytes data).setTopic _ _).respond _ _ _

theorem SameBuilder.exec_writeRaw (h : SameBuilder s t) (data : List Byte) :
    OutcomesAgree SameBuilder (exec (.writeRaw data) s) (exec (.writeRaw data) t) := by
  have ⟨_, hphase, hcur, _⟩ := h
  simp only [exec, execWriteRaw, hphase, hcur, h.size_tx]
  split
  · exact h.reject .sequenceError
  split
  · exact h.reject .capacityExceeded
  exact (h.putPayload data).respond _ _ _

theorem SameBuilder.exec_writeVia (h : SameBuilder s t) (v : Word) :
    OutcomesAgree SameBuilder (exec (.writeVia v) s) (exec (.writeVia v) t) := by
  have ⟨hparams, hphase, _, _, _, _, _, hanswers⟩ := h
  simp only [exec, execWriteVia, hparams, hphase, hanswers]
  split
  · exact h.reject .sequenceError
  split
  · exact h.reject .serializerFailed
  cases s.serAnswers with
  | nil => rfl
  | cons ans rest => exact (h.askSerializer v rest).takeAnswer ans

theorem SameBuilder.exec_finalize (h : SameBuilder s t) (kind : Byte) :
    OutcomesAgree SameBuilder (exec (.finalize kind) s) (exec (.finalize kind) t) := by
  have ⟨_, hphase, hcur, _⟩ := h
  simp only [exec, execFinalize, hphase, hcur]
  split
  · exact h.reject .sequenceError
  split
  · exact h.reject .unknownMessageKind
  refine h.withBytes_tx _ _ fun body => ?_
  simp only [State.memWrite, encodeHeader_length, h.size_tx, h.frameHeader]
  by_cases hfit : 0 + 16 ≤ s.size .tx
  · simp only [hfit, if_true]
    exact ((h.putTx 0 _).finalize _).respond _ _ _
  · simp only [hfit, if_false]
    rfl

theorem SameBuilder.exec_asFrame (h : SameBuilder s t) :
    OutcomesAgree SameBuilder (exec .asFrame s) (exec .asFrame t) := by
  have ⟨_, hphase, _, _, _, hframeLen, _⟩ := h
  simp only [exec, execAsFrame, hphase, hframeLen]
  split
  · exact h.reject _
  · exact h.withBytes_tx _ _ fun frame => h.respond _ _ _

/-- Settles O56, command by command. -/
theorem builderIsIndependentOfTheRest : Obligations.BuilderIsIndependentOfTheRest := by
  intro i s t hi h
  cases i with
  | bldReset => exact h.exec_bldReset
  | setTopic data => exact h.exec_setTopic data
  | writeRaw data => exact h.exec_writeRaw data
  | writeVia v => exact h.exec_writeVia v
  | finalize kind => exact h.exec_finalize kind
  | asFrame => exact h.exec_asFrame
  | crcInit | crcUpdate | crcFinal | crcOneshot | hdrEncode | hdrDecode | msgType | frameParse | verify | rxLoad
  | getStatus => exact absurd hi (by simp [Instr.op, builderOps])

end Sys2Proof.Machine

/-!
The decoder's commands RX_LOAD, FRAME_PARSE and MSG_TYPE (42_frame_decode.md R141 to R153).
-/
namespace Sys2Proof.Machine

variable {s t : State}

/-! ## RX_LOAD -/

theorem exec_rxLoad_of_fits {data : List Byte} (hfit : data.length ≤ s.size .rx) :
    exec (.rxLoad data) s = .next
      ({ (s.putBytes .rx 0 data).clearValid with rxLen := BitVec.ofNat 32 data.length }.respond .ok [] []) :=
  congrArg Host.Outcome.next (if_neg hfit.not_gt)

/-- Settles O27, by whether the data fits RX. -/
theorem rxLoadRule : Obligations.RxLoadRule := by
  refine ⟨fun data => decodeOfEncodeIsTheInstruction (.rxLoad data), illFormedRejected .rxLoad, fun s data => ?_⟩
  split
  next hover => exact congrArg Host.Outcome.next (if_pos hover)
  next hover =>
    have hfit : data.length ≤ s.size .rx := Nat.le_of_not_lt hover
    exact ⟨s.rx.writeBytes 0 data, BitVec.ofNat 32 data.length, toNat_ofNat_of_le_size hfit,
      writtenAt_writeBytes s.rx 0 data, exec_rxLoad_of_fits hfit⟩

/-! ## FRAME_PARSE -/

/-- Settles O28, by whether RX holds a header. -/
theorem frameParseRule : Obligations.FrameParseRule := by
  refine ⟨by decide, illFormedRejected .frameParse,
    fun s => ⟨exec_frameParse_of_lt, fun hlen hsize bytes hbytes hread => ?_⟩⟩
  rw [holds_iff_readBytes, hbytes] at hread
  exact ⟨_, _, _, parsedWith_vTopicLen_toNat s (headerFields bytes), parsedWith_vPayloadOff_toNat s (headerFields bytes),
    parsedWith_vPayloadLen_toNat s (headerFields bytes), exec_frameParse_of_read hlen hsize hread⟩

theorem isTruncated_eq_true_iff (h : Header) (n : Nat) : isTruncated h n = true ↔ n < declaredEnd h :=
  decide_eq_true_iff

/-- A truncated parse takes all the loaded bytes (R143). -/
theorem clampedEnd_of_truncated {h : Header} {n : Nat} (ht : isTruncated h n = true) : clampedEnd h n = n :=
  Nat.min_eq_right ((isTruncated_eq_true_iff h n).1 ht).le

/-- A topic that is cut ends where the loaded bytes end (R144, R146). -/
theorem topicEnd_of_cut {h : Header} {n : Nat} (hcut : topicEnd h n - headerBytes < h.topicLen.toNat) :
    topicEnd h n = clampedEnd h n := by
  simp only [topicEnd] at hcut ⊢
  omega

/-- Settles O31, from the ends of the two views. -/
theorem parsedViewsTileTheAvailableBytes : Obligations.ParsedViewsTileTheAvailableBytes := by
  intro s t hx hf
  obtain ⟨-, rfl⟩ | ⟨hlen, -, bs, -, rfl⟩ := exec_frameParse_cases hx
  · cases hf
  generalize headerFields bs = h
  have htopic := headerBytes_le_topicEnd h hlen
  have hends := topicEnd_le_clampedEnd h s.rxLen.toNat
  have hloaded := clampedEnd_le h s.rxLen.toNat
  simp only [State.respond_vTopicLen, State.respond_vPayloadOff, State.respond_vPayloadLen, parsedWith_vTopicLen_toNat,
    parsedWith_vPayloadOff_toNat, parsedWith_vPayloadLen_toNat, Nat.add_sub_of_le hends]
  exact ⟨rfl, (Nat.add_sub_of_le htopic).symm, hloaded, isTruncated_eq_true_iff h _, (isTruncated_eq_false_iff h hlen).1,
    clampedEnd_of_truncated, fun hcut => Nat.sub_eq_zero_of_le (topicEnd_of_cut hcut).ge⟩

/-! ## MSG_TYPE -/

/-- A kind is known exactly when the masked options are the code of one (R151). -/
theorem kindOf_eq_ok {mask options : Half} (h : options &&& mask = 1 ∨ options &&& mask = 2) :
    ∃ kind, kindOf mask options = .ok kind := by
  by_cases hpush : options &&& mask = 1
  · exact ⟨.push, if_pos hpush⟩
  · exact ⟨.subscribe, (if_neg hpush).trans (if_pos (h.resolve_left hpush))⟩

theorem kindOf_eq_unknown {mask options : Half} (h : ¬(options &&& mask = 1 ∨ options &&& mask = 2)) :
    kindOf mask options = .error .unknownMessageKind :=
  (if_neg fun hpush => h (.inl hpush)).trans (if_neg fun hsubscribe => h (.inr hsubscribe))

theorem exec_msgType_of_known (hv : s.hdrValid = true)
    (h : s.hOptions &&& s.params.kindMask = 1 ∨ s.hOptions &&& s.params.kindMask = 2) :
    exec .msgType s = .next (s.respond .ok [(s.hOptions &&& s.params.kindMask).zeroExtend 32] []) := by
  obtain ⟨kind, hkind⟩ := kindOf_eq_ok h
  simp [exec, execMsgType, hv, hkind]

theorem exec_msgType_of_unknown (hv : s.hdrValid = true)
    (h : ¬(s.hOptions &&& s.params.kindMask = 1 ∨ s.hOptions &&& s.params.kindMask = 2)) :
    exec .msgType s = .next (s.respond .unknownMessageKind [(s.hOptions &&& s.params.kindMask).zeroExtend 32] []) := by
  simp [exec, execMsgType, hv, kindOf_eq_unknown h]

/-- Settles O29, by whether a header is decoded and whether its kind is known. -/
theorem msgTypeRule : Obligations.MsgTypeRule := by
  refine ⟨by decide, illFormedRejected .msgType, fun s => ?_⟩
  split
  next hv => exact congrArg Host.Outcome.next (if_pos hv)
  next hv =>
  rw [Bool.not_eq_false] at hv
  split
  next hknown => exact exec_msgType_of_known hv hknown
  next hunknown => exact exec_msgType_of_unknown hv hunknown

end Sys2Proof.Machine

/-!
When VERIFY answers OK (42_frame_decode.md R156), and that the decoder's commands read RX below RXLEN only (R158).
-/
namespace Sys2Proof.Machine

variable {s t : State}

/-! ## An intact frame -/

theorem answered_respond (s : State) (st st' : Status) (vs : List Word) (bs : List Byte) :
    answered (s.respond st vs bs) st' ↔ st = st' := by
  simp [answered, State.respond]

theorem State.verdict_of_eq {bs : List Byte} (h : crc32 bs = s.hChecksum) :
    s.verdict bs = s.respond .ok [crc32 bs] [] := if_neg (not_not.2 h)

/-- VERIFY answers OK exactly when it passes its four checks (R157). -/
theorem exec_verify_answers_ok_iff (hx : exec .verify s = .next t) :
    answered t .ok ↔ s.frameValid = true ∧ s.hMagic = s.params.magic ∧ s.trunc = false ∧
      ∃ bs, s.checkedBytes = .ok bs ∧ crc32 bs = s.hChecksum := by
  constructor
  · intro hok
    obtain ⟨-, rfl⟩ | ⟨-, -, rfl⟩ | ⟨-, -, -, rfl⟩ | ⟨hf, hm, ht, bs, hbs, ⟨-, rfl⟩ | ⟨hcrc, -⟩⟩ := exec_verify_cases hx
    case inr.inr.inr.inr => exact ⟨hf, hm, ht, bs, hbs, hcrc⟩
    all_goals cases (answered_respond ..).1 hok
  · rintro ⟨hf, hm, ht, bs, hbs, hcrc⟩
    rw [exec_verify_of_checkedBytes hf hm ht hbs, State.verdict_of_eq hcrc] at hx
    cases hx
    exact (answered_respond ..).2 rfl

/-- Under R41 VERIFY checksums the declared bytes of a complete frame. -/
theorem DecoderInv.checkedBytes_eq_ok_iff (h : DecoderInv s) (hf : s.frameValid = true) (ht : s.trunc = false)
    {body : List Byte} :
    s.checkedBytes = .ok body ↔
      body.length = s.hTopicLen.toNat + s.hDataLen.toNat ∧ Holds s .rx headerBytes body := by
  have hfit : headerBytes + (s.hTopicLen.toNat + s.hDataLen.toNat) ≤ s.size .rx := by
    rw [← Nat.add_assoc]
    exact (h.declaredEnd_le hf ht).trans h.rxLenFits
  rw [State.checkedBytes_of_declared (h.viewsDeclared hf ht)]
  exact (memReadAnswersTheBytes s .rx _ _ body).trans (and_iff_right hfit)

/-- Settles O33. -/
theorem verifyOkIffFrameIsIntact : Obligations.VerifyOkIffFrameIsIntact := by
  intro s h hf
  obtain ⟨t, hx⟩ := h.decoder.exec_verify_next
  refine ⟨t, hx, ?_⟩
  rw [exec_verify_answers_ok_iff hx, and_iff_right hf]
  refine and_congr_right fun _ => and_congr_right fun ht => exists_congr fun body => ?_
  rw [h.decoder.checkedBytes_eq_ok_iff hf ht, and_assoc]
  rfl

/-! ## The bytes at and above RXLEN -/

/-- Two outcomes agree but for RX, which the second one holds as `m`. -/
def AgreeUpToRx (m : Memory) : Outcome → Outcome → Prop := OutcomesAgree fun t u => u = { t with rx := m }

theorem AgreeUpToRx.respond (m : Memory) (s : State) (st : Status) (vs : List Word) (bs : List Byte) :
    AgreeUpToRx m (.next (s.respond st vs bs)) (.next ({ s with rx := m }.respond st vs bs)) := ⟨rfl, rfl⟩

theorem AgreeUpToRx.verdict (m : Memory) (s : State) (bs : List Byte) :
    AgreeUpToRx m (.next (s.verdict bs)) (.next ({ s with rx := m }.verdict bs)) := by
  simp only [State.verdict]
  split <;> exact .respond m s _ _ _

section Loaded

variable {m : Memory} (hm : ∀ a, a < s.rxLen.toNat → m.read a = s.rx.read a)
include hm

/-- A read below RXLEN gives the same whatever stands above it. -/
theorem memRead_rx_of_loaded {a n : Nat} (h : a + n ≤ s.rxLen.toNat) :
    { s with rx := m }.memRead .rx a n = s.memRead .rx a n := by
  have hsize : { s with rx := m }.size .rx = s.size .rx := rfl
  have hread : ({ s with rx := m }.mem .rx).readBytes a n = (s.mem .rx).readBytes a n :=
    Memory.readBytes_congr a n fun b _ hb => hm b (by omega)
  simp only [State.memRead, hsize, hread]

/-- The header step reads RX[0:16) only when RXLEN is at least 16 (R104, R145). -/
theorem AgreeUpToRx.withRxHeader {k l : Header → Outcome} (hkl : ∀ hdr, AgreeUpToRx m (k hdr) (l hdr)) :
    AgreeUpToRx m (s.withRxHeader k) ({ s with rx := m }.withRxHeader l) := by
  simp only [State.withRxHeader, State.withBytes]
  split
  next => exact .respond m s.clearValid .truncatedHeader [] []
  next hlen =>
    rw [memRead_rx_of_loaded hm (by omega)]
    cases s.memRead .rx 0 headerBytes with
    | ok bs => exact hkl _
    | error f => rfl

theorem exec_hdrDecode_agrees : AgreeUpToRx m (exec .hdrDecode s) (exec .hdrDecode { s with rx := m }) :=
  .withRxHeader hm fun hdr => .respond m { (s.clearFrameValid.setHeader hdr) with hdrValid := true } _ _ _

theorem exec_frameParse_agrees : AgreeUpToRx m (exec .frameParse s) (exec .frameParse { s with rx := m }) := by
  rw [exec_frameParse_eq, exec_frameParse_eq]
  exact .withRxHeader hm fun hdr => .respond m (parsedWith s hdr) _ _ _

/-- VERIFY of a complete frame checksums bytes below RXLEN (R41, R156). -/
theorem DecoderInv.checkedBytes_of_loaded (h : DecoderInv s) (hf : s.frameValid = true) (ht : s.trunc = false) :
    { s with rx := m }.checkedBytes = s.checkedBytes := by
  have hviews := h.viewsDeclared hf ht
  have hend : headerBytes + (s.hTopicLen.toNat + s.hDataLen.toNat) ≤ s.rxLen.toNat := by
    rw [← Nat.add_assoc]
    exact h.declaredEnd_le hf ht
  rw [State.checkedBytes_of_declared hviews, State.checkedBytes_of_declared (s := { s with rx := m }) hviews]
  exact memRead_rx_of_loaded hm hend

theorem DecoderInv.exec_verify_agrees (h : DecoderInv s) :
    AgreeUpToRx m (exec .verify s) (exec .verify { s with rx := m }) := by
  simp only [exec, execVerify]
  split
  next => exact .respond m s _ _ _
  next hf =>
  split
  next => exact .respond m s _ _ _
  next =>
  split
  next => exact .respond m s _ _ _
  next ht =>
  rw [h.checkedBytes_of_loaded hm (by simpa using hf) (by simpa using ht)]
  cases s.checkedBytes with
  | ok bs => exact .verdict m s bs
  | error f => rfl

end Loaded

/-- MSG_TYPE reads no byte of RX (R153). -/
theorem exec_msgType_agrees (m : Memory) (s : State) :
    AgreeUpToRx m (exec .msgType s) (exec .msgType { s with rx := m }) := by
  simp only [exec, execMsgType]
  split
  · exact .respond m s _ _ _
  · cases kindOf s.params.kindMask s.hOptions <;> exact .respond m s _ _ _

/-- Settles O34, command by command. -/
theorem decoderReadsOnlyLoadedBytes : Obligations.DecoderReadsOnlyLoadedBytes := by
  intro s m i h hm hi
  cases i with
  | hdrDecode => exact exec_hdrDecode_agrees hm
  | frameParse => exact exec_frameParse_agrees hm
  | msgType => exact exec_msgType_agrees m s
  | verify => exact h.exec_verify_agrees hm
  | crcInit | crcUpdate | crcFinal | crcOneshot | hdrEncode | rxLoad | bldReset | setTopic | writeRaw | writeVia | finalize
  | asFrame | getStatus => exact absurd hi (by simp [Instr.op])

end Sys2Proof.Machine

/-!
A built frame, loaded into RX and parsed (42_frame_decode.md R147, R150; 43_frame_builder.md R193): what RX and the decoder's
registers hold after each command.
-/
namespace Sys2Proof.Machine

variable {s t : State} {h : Header} {topic payload : List Byte}

/-- Two byte strings side by side. -/
theorem holds_append (s : State) (sp : Space) (a : Nat) (xs ys : List Byte) :
    Holds s sp a (xs ++ ys) ↔ Holds s sp a xs ∧ Holds s sp (a + xs.length) ys := by
  constructor
  · refine fun hall => ⟨fun j hj => ?_, fun j hj => ?_⟩
    · rw [hall j (by rw [List.length_append]; omega), List.getElem?_append_left hj]
    · rw [Nat.add_assoc, hall _ (by rw [List.length_append]; omega), List.getElem?_append_right (Nat.le_add_right _ _), Nat.add_sub_cancel_left]
  · rintro ⟨hxs, hys⟩ j hj
    rw [List.length_append] at hj
    rcases Nat.lt_or_ge j xs.length with hlt | hge
    · rw [hxs j hlt, List.getElem?_append_left hlt]
    · rw [List.getElem?_append_right hge, ← hys (j - xs.length) (by omega)]
      congr 1
      omega

/-- The commands of a sequence that answers OK throughout lead to its last state also without R90's stopping rule. -/
theorem RunsOk.execAll_eq {is : List Instr} (hrun : RunsOk is s t) : execAll is s = .next t := by
  induction is generalizing s with
  | nil => exact congrArg _ hrun
  | cons i is ih =>
    obtain ⟨u, hx, -, hrest⟩ := hrun
    rw [execAll_cons_of_next s hx]
    exact ih hrest

theorem RunsOk.params_eq {is : List Instr} (hrun : RunsOk is s t) : t.params = s.params := by
  induction is generalizing s with
  | nil => exact congrArg State.params hrun.symm
  | cons i is ih =>
    obtain ⟨u, hx, -, hrest⟩ := hrun
    exact (ih hrest).trans (exec_keeps_params hx)

/-! ## The decoder after each command -/

/-- RX after RX_LOAD (R141). -/
structure FrameLoaded (s : State) (frame : List Byte) : Prop where
  rxLen : s.rxLen.toNat = frame.length
  fits : frame.length ≤ s.size .rx
  bytes : Holds s .rx 0 frame

/-- The decoder after a parse of a complete frame with header `h` (R145, R150). -/
structure FrameParsed (s : State) (h : Header) (topic payload : List Byte) : Prop where
  hdrValid : s.hdrValid = true
  frameValid : s.frameValid = true
  complete : s.trunc = false
  header : s.header = h
  topicLen : h.topicLen.toNat = topic.length
  dataLen : h.dataLen.toNat = payload.length
  vTopicOff : s.vTopicOff.toNat = headerBytes
  vTopicLen : s.vTopicLen.toNat = topic.length
  vPayloadOff : s.vPayloadOff.toNat = headerBytes + topic.length
  vPayloadLen : s.vPayloadLen.toNat = payload.length
  fits : headerBytes + (topic ++ payload).length ≤ s.size .rx
  bytes : Holds s .rx headerBytes (topic ++ payload)

theorem FrameParsed.respond (hp : FrameParsed s h topic payload) (st : Status) (vs : List Word) (bs : List Byte) :
    FrameParsed (s.respond st vs bs) h topic payload := { hp with }

theorem exec_rxLoad_loads {frame : List Byte} (hfit : frame.length ≤ s.size .rx) :
    ∃ t, exec (.rxLoad frame) s = .next t ∧ answered t .ok ∧ FrameLoaded t frame :=
  ⟨_, exec_rxLoad_of_fits hfit, ⟨_, _, rfl⟩, toNat_ofNat_of_le_size hfit, hfit,
    (holds_iff_readBytes _ .rx 0 frame).2 (s.rx.readBytes_writeBytes 0 frame)⟩

/-- The views of a frame of exactly the declared length are not clamped (R143, R144, R150). -/
theorem views_of_complete {n : Nat} (hn : n = declaredEnd h) :
    clampedEnd h n = n ∧ topicEnd h n = headerBytes + h.topicLen.toNat ∧ isTruncated h n = false := by
  subst hn
  refine ⟨Nat.min_self _, ?_, decide_eq_false (Nat.lt_irrefl _)⟩
  simp only [topicEnd, clampedEnd, declaredEnd]
  omega

theorem FrameLoaded.exec_frameParse (hl : FrameLoaded s (encodeHeader h ++ (topic ++ payload)))
    (htopic : h.topicLen.toNat = topic.length) (hpayload : h.dataLen.toNat = payload.length) :
    ∃ t, exec .frameParse s = .next t ∧ answered t .ok ∧ FrameParsed t h topic payload := by
  obtain ⟨hlen, hfits, hbytes⟩ := hl
  obtain ⟨hheader, hbody⟩ := (holds_append ..).1 hbytes
  rw [List.length_append, encodeHeader_length] at hlen hfits
  rw [holds_iff_readBytes, encodeHeader_length] at hheader
  have hfields : headerFields (encodeHeader h) = h := by simpa using headerFields_encodeHeader_append h []
  have hdeclared : s.rxLen.toNat = declaredEnd h := by
    rw [hlen, declaredEnd, htopic, hpayload, List.length_append, Nat.add_assoc]
    rfl
  obtain ⟨hend, htend, htrunc⟩ := views_of_complete hdeclared
  have hx := exec_frameParse_of_read (s := s) (by rw [hlen]; exact Nat.le_add_right _ _)
    ((Nat.le_add_right _ _).trans hfits) hheader
  rw [hfields, htrunc] at hx
  refine ⟨_, hx, ⟨_, _, rfl⟩, FrameParsed.respond ?_ _ _ _⟩
  exact {
    hdrValid := rfl
    frameValid := rfl
    complete := htrunc
    header := rfl
    topicLen := htopic
    dataLen := hpayload
    vTopicOff := rfl
    vTopicLen := by rw [parsedWith_vTopicLen_toNat, htend, Nat.add_sub_cancel_left, htopic]
    vPayloadOff := by rw [parsedWith_vPayloadOff_toNat, htend, htopic]
    vPayloadLen := by
      rw [parsedWith_vPayloadLen_toNat, hend, htend, hdeclared, declaredEnd, Nat.add_sub_cancel_left, hpayload]
    fits := hfits
    bytes := hbody }

namespace FrameParsed

variable (hp : FrameParsed s h topic payload)
include hp

theorem views_hold : Holds s .rx headerBytes topic ∧ Holds s .rx (headerBytes + topic.length) payload :=
  (holds_append ..).1 hp.bytes

/-- `topic()` reads the topic (R147). -/
theorem topicView_eq : s.topicView = .ok topic := by
  obtain ⟨htopic, -⟩ := hp.views_hold
  have hfits := hp.fits
  rw [List.length_append] at hfits
  rw [State.topicView, hp.vTopicOff, hp.vTopicLen]
  exact memRead_of_holds rfl (by omega) htopic

/-- `payload()` reads the payload (R147). -/
theorem payloadView_eq : s.payloadView = .ok payload := by
  obtain ⟨-, hpayload⟩ := hp.views_hold
  have hfits := hp.fits
  rw [List.length_append] at hfits
  rw [State.payloadView, hp.vPayloadOff, hp.vPayloadLen]
  exact memRead_of_holds rfl (by omega) hpayload

theorem checkedBytes_eq : s.checkedBytes = .ok (topic ++ payload) := by
  obtain ⟨-, -, -, rfl, htopic, hpayload, hto, htl, hpo, hpl, hfits, hbytes⟩ := hp
  have hviews : s.viewsDeclared := ⟨hto, by rw [hpo, htl], htl.trans htopic.symm, hpl.trans hpayload.symm⟩
  rw [State.checkedBytes_of_declared hviews]
  refine memRead_of_holds ?_ hfits hbytes
  rw [List.length_append, ← htopic, ← hpayload]
  rfl

/-- VERIFY of a frame with the protocol's magic and the checksum of its bytes (R193). -/
theorem exec_verify (hmagic : h.magic = s.params.magic) (hcrc : h.checksum = crc32 (topic ++ payload)) :
    ∃ t, exec .verify s = .next t ∧ answered t .ok ∧ FrameParsed t h topic payload := by
  have hx := exec_verify_of_checkedBytes hp.frameValid ((congrArg Header.magic hp.header).trans hmagic) hp.complete
    hp.checkedBytes_eq
  rw [State.verdict_of_eq (hcrc.symm.trans (congrArg Header.checksum hp.header).symm)] at hx
  exact ⟨_, hx, ⟨_, _, rfl⟩, hp.respond _ _ _⟩

/-- MSG_TYPE answers the kind under every legal mask (R152, R193). -/
theorem exec_msgType {kind : Byte} (hoptions : h.options = kind.zeroExtend 16) (hkind : kind = 1 ∨ kind = 2) :
    exec .msgType s = .next (s.respond .ok [kind.zeroExtend 32] []) := by
  have hregister : s.hOptions = kind.zeroExtend 16 := (congrArg Header.options hp.header).trans hoptions
  have hmasked : s.hOptions &&& s.params.kindMask = kind.zeroExtend 16 := by
    rw [hregister]
    exact and_kindMask_of_le_three _ (by rcases hkind with rfl | rfl <;> decide)
  rcases hkind with rfl | rfl
  · rw [exec_msgType_of_known hp.hdrValid (.inl hmasked), hmasked]
    rfl
  · rw [exec_msgType_of_known hp.hdrValid (.inr hmasked), hmasked]
    rfl

end FrameParsed

/-! ## A built frame -/

/-- The header of a frame of a topic, a payload and a kind (R190). -/
def builtHeader (p : Params) (topic payload : List Byte) (kind : Byte) : Header :=
  ⟨p.magic, crc32 (topic ++ payload), kind.zeroExtend 16, BitVec.ofNat 16 topic.length, BitVec.ofNat 32 payload.length⟩

theorem builtFrame_eq (p : Params) (topic payload : List Byte) (kind : Byte) :
    builtFrame p topic payload kind = encodeHeader (builtHeader p topic payload kind) ++ (topic ++ payload) :=
  List.append_assoc ..

/-- Settles O46, command by command. -/
theorem builtFrameParsesVerifiesAndClassifies : Obligations.BuiltFrameParsesVerifiesAndClassifies := by
  intro s topic payload kind hmax hcap hrxcap hkind
  obtain ⟨t, n, hrun, -, hresp⟩ := runsOk_build s hmax hcap hkind
  have hlen := builtFrame_length s.params topic payload kind
  have htopic : (BitVec.ofNat 16 topic.length).toNat = topic.length := Nat.mod_eq_of_lt (by omega)
  have hpayload : (BitVec.ofNat 32 payload.length).toNat = payload.length :=
    toNat_ofNat_of_le_size (s := s) (sp := .rx) (by rw [State.size_rx]; omega)
  obtain ⟨t₁, hx₁, hok₁, hloaded⟩ := exec_rxLoad_loads (s := t) (frame := builtFrame s.params topic payload kind)
    (by rw [State.size_rx, hrun.params_eq, hlen]; exact hrxcap)
  rw [builtFrame_eq] at hloaded
  obtain ⟨t₂, hx₂, hok₂, hparsed₂⟩ := hloaded.exec_frameParse htopic hpayload
  have hparams : t₂.params = s.params :=
    (exec_keeps_params hx₂).trans ((exec_keeps_params hx₁).trans hrun.params_eq)
  obtain ⟨t₃, hx₃, hok₃, hparsed₃⟩ := hparsed₂.exec_verify (congrArg Params.magic hparams).symm rfl
  have hx₄ := hparsed₃.exec_msgType rfl hkind
  have hparsed := hparsed₃.respond .ok [kind.zeroExtend 32] []
  obtain ⟨hholdsTopic, hholdsPayload⟩ := hparsed.views_hold
  exact ⟨t, n, _, t₁, t₂, t₃, _, hrun.execAll_eq, hresp, hx₁, hok₁, hx₂, hok₂, hx₃, hok₃, hx₄, rfl, hparsed.vTopicOff,
    hparsed.vTopicLen, hparsed.vPayloadOff, hparsed.vPayloadLen, hholdsTopic, hholdsPayload, hparsed.topicView_eq,
    hparsed.payloadView_eq⟩

end Sys2Proof.Machine

/-!
The frame builder's commands one by one (43_frame_builder.md R176 to R195) and its phase transition table (R171, R172).
-/
namespace Sys2Proof.Machine

variable {i : Instr} {s t : State}

/-! ## The phase transition table (R171) -/

theorem nextPhase_setTopic (p : Phase) : nextPhase .setTopic p = if p = .empty then some .topic else none := by
  cases p <;> rfl

theorem nextPhase_writeRaw (p : Phase) : nextPhase .writeRaw p = if p = .topic then some .data else none := by
  cases p <;> rfl

theorem nextPhase_writeVia (p : Phase) : nextPhase .writeVia p = if p = .topic then some .data else none := by
  cases p <;> rfl

theorem nextPhase_finalize (p : Phase) : nextPhase .finalize p = if p = .data then some .finalized else none := by
  cases p <;> rfl

theorem nextPhase_asFrame (p : Phase) : nextPhase .asFrame p = if p = .finalized then some .finalized else none := by
  cases p <;> rfl

/-! ## A command in the wrong phase (R172) -/

theorem exec_setTopic_of_phase_ne (h : s.phase ≠ .empty) (data : List Byte) :
    exec (.setTopic data) s = .next (s.reject .sequenceError) := congrArg Host.Outcome.next (if_pos h)

theorem exec_writeRaw_of_phase_ne (h : s.phase ≠ .topic) (data : List Byte) :
    exec (.writeRaw data) s = .next (s.reject .sequenceError) := congrArg Host.Outcome.next (if_pos h)

theorem exec_writeVia_of_phase_ne (h : s.phase ≠ .topic) (v : Word) :
    exec (.writeVia v) s = .next (s.reject .sequenceError) := if_pos h

theorem exec_finalize_of_phase_ne (h : s.phase ≠ .data) (kind : Byte) :
    exec (.finalize kind) s = .next (s.reject .sequenceError) := if_pos h

theorem exec_asFrame_of_phase_ne (h : s.phase ≠ .finalized) :
    exec .asFrame s = .next (s.reject .sequenceError) := if_pos h

/-- Settles O42, command by command: each checks PHASE first. -/
theorem outOfOrderCommandOnlySetsErr : Obligations.OutOfOrderCommandOnlySetsErr := by
  intro i s hi hseq
  cases i with
  | bldReset => cases hseq
  | setTopic data =>
    rw [Instr.op, nextPhase_setTopic] at hseq
    exact exec_setTopic_of_phase_ne (by simpa using hseq) data
  | writeRaw data =>
    rw [Instr.op, nextPhase_writeRaw] at hseq
    exact exec_writeRaw_of_phase_ne (by simpa using hseq) data
  | writeVia v =>
    rw [Instr.op, nextPhase_writeVia] at hseq
    exact exec_writeVia_of_phase_ne (by simpa using hseq) v
  | finalize kind =>
    rw [Instr.op, nextPhase_finalize] at hseq
    exact exec_finalize_of_phase_ne (by simpa using hseq) kind
  | asFrame =>
    rw [Instr.op, nextPhase_asFrame] at hseq
    exact exec_asFrame_of_phase_ne (by simpa using hseq)
  | crcInit | crcUpdate | crcFinal | crcOneshot | hdrEncode | hdrDecode | msgType | frameParse | verify | rxLoad
  | getStatus => exact absurd hi (by simp [Instr.op, builderOps])

/-! ## A command in its phase (R171) -/

/-- How a command ends in a phase where the table lets it run: OK in the phase of its cell, or rejected for
another reason than its phase, with PHASE kept. -/
def MovedOrRefused (p : Phase) (s t : State) : Prop :=
  (∃ u vs bs, t = State.respond u .ok vs bs ∧ u.phase = p) ∨
  (∃ u st, st ≠ .ok ∧ st ≠ .sequenceError ∧ t = State.reject u st ∧ u.phase = s.phase)

theorem movedOrRefused_respond {p : Phase} {u : State} (hp : u.phase = p) (vs : List Word) (bs : List Byte) :
    MovedOrRefused p s (u.respond .ok vs bs) := .inl ⟨u, vs, bs, rfl, hp⟩

theorem movedOrRefused_reject {p : Phase} {u : State} {st : Status} (hp : u.phase = s.phase) (hok : st ≠ .ok)
    (hseq : st ≠ .sequenceError) : MovedOrRefused p s (u.reject st) := .inr ⟨u, st, hok, hseq, rfl, hp⟩

theorem exec_movedOrRefused {p : Phase} (hi : i.op ∈ builderOps) (hcell : nextPhase i.op s.phase = some p)
    (hx : exec i s = .next t) : MovedOrRefused p s t := by
  cases i with
  | bldReset =>
    cases hx
    cases hcell
    exact movedOrRefused_respond rfl _ _
  | setTopic data =>
    obtain ⟨hp, rfl⟩ : s.phase = .empty ∧ .topic = p := by simpa [Instr.op, nextPhase_setTopic] using hcell
    obtain ⟨hne, -⟩ | ⟨-, -, rfl⟩ | ⟨-, -, -, rfl⟩ := exec_setTopic_cases hx
    · exact absurd hp hne
    · exact movedOrRefused_reject rfl nofun nofun
    · exact movedOrRefused_respond rfl _ _
  | writeRaw data =>
    obtain ⟨hp, rfl⟩ : s.phase = .topic ∧ .data = p := by simpa [Instr.op, nextPhase_writeRaw] using hcell
    obtain ⟨hne, -⟩ | ⟨-, -, rfl⟩ | ⟨-, -, rfl⟩ := exec_writeRaw_cases hx
    · exact absurd hp hne
    · exact movedOrRefused_reject rfl nofun nofun
    · exact movedOrRefused_respond rfl _ _
  | writeVia v =>
    obtain ⟨hp, rfl⟩ : s.phase = .topic ∧ .data = p := by simpa [Instr.op, nextPhase_writeVia] using hcell
    obtain ⟨hne, -⟩ | ⟨-, -, rfl⟩ |
      ⟨-, -, ans, rest, -, ⟨-, rfl⟩ | ⟨-, rfl⟩ | ⟨bs, -, -, rfl⟩ | ⟨bs, -, -, rfl⟩⟩ := exec_writeVia_cases hx
    · exact absurd hp hne
    case inr.inr.inr.inr.inr => exact movedOrRefused_respond rfl _ _
    all_goals exact movedOrRefused_reject rfl nofun nofun
  | finalize kind =>
    obtain ⟨hp, rfl⟩ : s.phase = .data ∧ .finalized = p := by simpa [Instr.op, nextPhase_finalize] using hcell
    obtain ⟨hne, -⟩ | ⟨-, -, rfl⟩ | ⟨-, -, body, header, -, -, -, rfl⟩ := exec_finalize_cases hx
    · exact absurd hp hne
    · exact movedOrRefused_reject rfl nofun nofun
    · exact movedOrRefused_respond rfl _ _
  | asFrame =>
    obtain ⟨hp, rfl⟩ : s.phase = .finalized ∧ .finalized = p := by simpa [Instr.op, nextPhase_asFrame] using hcell
    obtain ⟨hne, -⟩ | ⟨-, frame, -, -, rfl⟩ := exec_asFrame_cases hx
    · exact absurd hp hne
    · exact movedOrRefused_respond hp _ _
  | crcInit | crcUpdate | crcFinal | crcOneshot | hdrEncode | hdrDecode | msgType | frameParse | verify | rxLoad
  | getStatus => exact absurd hi (by simp [Instr.op, builderOps])

/-- Settles O41, by whether the table's cell is SEQ. -/
theorem phaseFollowsTheTransitionTable : Obligations.PhaseFollowsTheTransitionTable := by
  intro i s t hi hx
  cases hcell : nextPhase i.op s.phase with
  | none =>
    cases hx.symm.trans (outOfOrderCommandOnlySetsErr i s hi hcell)
    have hanswered (st : Status) : answered (replied s .sequenceError [] []) st ↔ .sequenceError = st :=
      answered_respond s .sequenceError st [] []
    exact ⟨by simp [hanswered], fun _ => rfl, by simp [hanswered], fun _ => rfl⟩
  | some p =>
    obtain ⟨u, vs, bs, rfl, hp⟩ | ⟨u, st, hok, hseq, rfl, hp⟩ := exec_movedOrRefused hi hcell hx
    · simp [answered_respond, hp]
    · simp [State.reject, answered_respond, hok, hseq, hp]

/-! ## BLD_RESET, SET_TOPIC and WRITE_RAW -/

/-- Settles O35. -/
theorem bldResetRule : Obligations.BldResetRule :=
  ⟨decodeOfEncodeIsTheInstruction .bldReset, illFormedRejected .bldReset, fun _ => rfl⟩

/-- Settles O36, along the order of SET_TOPIC's checks. -/
theorem setTopicRule : Obligations.SetTopicRule := by
  refine ⟨fun data => decodeOfEncodeIsTheInstruction (.setTopic data), illFormedRejected .setTopic, fun s data => ?_⟩
  split
  next hp => exact exec_setTopic_of_phase_ne hp data
  next hp =>
  split
  next hover => exact congrArg Host.Outcome.next ((if_neg hp).trans (if_pos hover))
  next hover =>
    rw [not_or, Nat.not_lt, Nat.not_lt] at hover
    obtain ⟨hmax, hfit⟩ := hover
    exact ⟨s.tx.writeBytes 16 data, BitVec.ofNat 16 data.length, BitVec.ofNat 32 (16 + data.length),
      Nat.mod_eq_of_lt (Nat.lt_succ_of_le hmax), toNat_ofNat_of_le_size (s := s) (sp := .tx) hfit,
      writtenAt_writeBytes s.tx 16 data, exec_setTopic_of_fits (not_not.1 hp) hmax hfit⟩

/-- A payload that fits above the cursor has a length and an end that 32 bits hold. -/
theorem toNat_ofNat_of_fits {bs : List Byte} (hfit : s.cur.toNat + bs.length ≤ s.size .tx) :
    (BitVec.ofNat 32 bs.length).toNat = bs.length ∧
      (BitVec.ofNat 32 (s.cur.toNat + bs.length)).toNat = s.cur.toNat + bs.length :=
  ⟨toNat_ofNat_of_le_size ((Nat.le_add_left _ _).trans hfit), toNat_ofNat_of_le_size hfit⟩

/-- Settles O37, along the order of WRITE_RAW's checks. -/
theorem writeRawRule : Obligations.WriteRawRule := by
  refine ⟨fun data => decodeOfEncodeIsTheInstruction (.writeRaw data), illFormedRejected .writeRaw, fun s data => ?_⟩
  split
  next hp => exact exec_writeRaw_of_phase_ne hp data
  next hp =>
  split
  next hover => exact congrArg Host.Outcome.next ((if_neg hp).trans (if_pos hover))
  next hover =>
    have hfit : s.cur.toNat + data.length ≤ s.size .tx := Nat.le_of_not_lt hover
    obtain ⟨hlen, hcur⟩ := toNat_ofNat_of_fits hfit
    exact ⟨s.tx.writeBytes s.cur.toNat data, _, _, hlen, hcur, writtenAt_writeBytes s.tx s.cur.toNat data,
      exec_writeRaw_of_fits (not_not.1 hp) hfit⟩

/-! ## WRITE_VIA -/

/-- WRITE_VIA with a serializer that answers (R187, R188). -/
theorem exec_writeVia_of_answer (hp : s.phase = .topic) (hser : s.params.hasSerializer = true) {ans : SerAnswer}
    {rest : List SerAnswer} (hans : s.serAnswers = ans :: rest) (v : Word) :
    exec (.writeVia v) s = .next ((s.askSerializer v rest).takeAnswer ans) := by
  simp only [exec, execWriteVia, hp, hser, hans, ne_eq, not_true_eq_false, if_false, Bool.true_eq_false]

theorem exec_writeVia_of_over (hp : s.phase = .topic) (hser : s.params.hasSerializer = true) {bs : List Byte}
    {rest : List SerAnswer} (hans : s.serAnswers = .wrote bs :: rest) (hover : s.size .tx < s.cur.toNat + bs.length)
    (v : Word) : exec (.writeVia v) s = .next ((s.askSerializer v rest).reject .capacityExceeded) :=
  (exec_writeVia_of_answer hp hser hans v).trans (congrArg Host.Outcome.next (if_pos hover))

theorem exec_writeVia_of_fits (hp : s.phase = .topic) (hser : s.params.hasSerializer = true) {bs : List Byte}
    {rest : List SerAnswer} (hans : s.serAnswers = .wrote bs :: rest) (hfit : s.cur.toNat + bs.length ≤ s.size .tx)
    (v : Word) : exec (.writeVia v) s =
      .next (((s.askSerializer v rest).putPayload bs).respond .ok [BitVec.ofNat 32 bs.length] []) :=
  (exec_writeVia_of_answer hp hser hans v).trans (congrArg Host.Outcome.next (if_neg hfit.not_gt))

/-- Settles O38, along the order of WRITE_VIA's checks and by the serializer's answer. -/
theorem writeViaRule : Obligations.WriteViaRule := by
  refine ⟨fun v => decodeOfEncodeIsTheInstruction (.writeVia v), illFormedRejected .writeVia, fun s v => ?_⟩
  split
  next hp => exact exec_writeVia_of_phase_ne hp v
  next hp =>
  split
  next hser => exact (if_neg hp).trans (if_pos hser)
  next hser =>
  rw [ne_eq, not_not] at hp
  rw [Bool.not_eq_false] at hser
  split
  next hans => exact exec_writeVia_of_awaits ⟨hp, hser, hans⟩ v
  next ans rest hans =>
  have hforget (a : Nat) (ha : a < s.cur.toNat ∨ s.size .tx ≤ a) : (s.askSerializer v rest).tx.read a = s.tx.read a :=
    s.tx.read_forget_outside ha
  cases ans with
  | noFit => exact ⟨_, hforget, exec_writeVia_of_answer hp hser hans v⟩
  | unrepresentable => exact ⟨_, hforget, exec_writeVia_of_answer hp hser hans v⟩
  | wrote bs =>
    by_cases hover : s.size .tx < s.cur.toNat + bs.length
    · exact ⟨_, hforget, (if_pos hover).mpr (exec_writeVia_of_over hp hser hans hover v)⟩
    · have hfit : s.cur.toNat + bs.length ≤ s.size .tx := Nat.le_of_not_lt hover
      obtain ⟨hlen, hcur⟩ := toNat_ofNat_of_fits hfit
      refine ⟨(s.askSerializer v rest).tx.writeBytes s.cur.toNat bs, fun a ha => ?_, ?_⟩
      · rw [Memory.read_writeBytes_outside _ _ _ _ (ha.imp_right hfit.trans), hforget a ha]
      · exact (if_neg hover).mpr ⟨_, _, hlen, hcur, fun j hj => Memory.read_writeBytes_inside _ _ j bs hj,
          exec_writeVia_of_fits hp hser hans hfit v⟩

/-! ## The serializer's payload and the one written directly (R188) -/

/-- One write over two memories that agree below its offset leaves them alike up to its end. -/
theorem Memory.read_writeBytes_congr {m m' : Memory} {a : Nat} (h : ∀ b, b < a → m.read b = m'.read b) (bs : List Byte)
    {b : Nat} (hb : b < a + bs.length) : (m.writeBytes a bs).read b = (m'.writeBytes a bs).read b := by
  rw [writtenAt_writeBytes m a bs b, writtenAt_writeBytes m' a bs b]
  split
  · rfl
  · exact h b (by omega)

/-- Settles O43, by whether the builder is in TOPIC and the bytes fit. -/
theorem serializerPayloadEqualsRawPayload : Obligations.SerializerPayloadEqualsRawPayload := by
  intro s t v bs rest hser hans hx
  have hforget (a : Nat) (ha : a < s.cur.toNat) : (s.askSerializer v rest).tx.read a = s.tx.read a :=
    s.tx.read_forget_outside (.inl ha)
  by_cases hp : s.phase = .topic
  · by_cases hfit : s.cur.toNat + bs.length ≤ s.size .tx
    · rw [exec_writeVia_of_fits hp hser hans hfit] at hx
      cases hx
      refine ⟨_, exec_writeRaw_of_fits hp hfit, rfl, fun r => by cases r <;> rfl, rfl, fun a ha => ?_⟩
      rw [State.respond_cur, State.putPayload_cur, toNat_ofNat_of_le_size hfit] at ha
      exact Memory.read_writeBytes_congr hforget bs ha
    · have hover := Nat.lt_of_not_le hfit
      rw [exec_writeVia_of_over hp hser hans hover] at hx
      cases hx
      exact ⟨_, congrArg Host.Outcome.next ((if_neg (not_not.2 hp)).trans (if_pos hover)), rfl,
        fun r => by cases r <;> rfl, rfl, hforget⟩
  · rw [exec_writeVia_of_phase_ne hp] at hx
    cases hx
    exact ⟨_, exec_writeRaw_of_phase_ne hp bs, rfl, fun _ => rfl, rfl, fun _ _ => rfl⟩

/-! ## FINALIZE and AS_FRAME -/

/-- The bytes FINALIZE writes (R190, R191). -/
theorem encodeHeader_frameHeader (s : State) (kind : Byte) (body : List Byte) :
    encodeHeader (s.frameHeader kind body) = be32 s.params.magic ++ be32 (crc32 body) ++ be16 (kind.zeroExtend 16) ++
      be16 s.bTopicLen ++ be32 s.bDataLen := rfl

/-- Settles O39, along the order of FINALIZE's checks. -/
theorem finalizeRule : Obligations.FinalizeRule := by
  refine ⟨fun kind => decodeOfEncodeIsTheInstruction (.finalize kind), illFormedRejected .finalize, fun s kind => ?_⟩
  split
  next hp => exact exec_finalize_of_phase_ne hp kind
  next hp =>
  split
  next hkind => exact (if_neg hp).trans (if_pos hkind)
  next hkind =>
    intro body hcur hfit hbody
    have hlegal : kind = 1 ∨ kind = 2 := by tauto
    have hlen : s.cur.toNat - headerBytes = body.length := Nat.sub_eq_of_eq_add' hcur.symm
    have hread : s.tx.readBytes headerBytes (s.cur.toNat - headerBytes) = some body := by
      rw [hlen]
      exact (holds_iff_readBytes s .tx headerBytes body).1 hbody
    have hx := exec_finalize_of_read (not_not.1 hp) hlegal (hcur ▸ Nat.le_add_right _ _) hfit hread
    rw [← encodeHeader_frameHeader]
    -- What the bytes are no longer matters, and comparing them written out is costly.
    generalize encodeHeader (s.frameHeader kind body) = header at hx ⊢
    exact ⟨_, writtenAt_writeBytes s.tx 0 header, hx⟩

/-- No command but AS_FRAME and HDR_ENCODE answers RDATA (R195). -/
theorem exec_rdata_eq_nil (hframe : i ≠ .asFrame) (hheader : i.op ≠ .hdrEncode) (hx : exec i s = .next t) :
    ∃ st vs, t.resp = some ⟨st, vs, []⟩ := by
  cases i with
  | crcInit | crcUpdate data | crcFinal | crcOneshot data | bldReset | getStatus =>
    cases hx
    exact ⟨_, _, rfl⟩
  | hdrEncode magic checksum options topicLen dataLen => exact absurd rfl hheader
  | asFrame => exact absurd rfl hframe
  | hdrDecode =>
    obtain ⟨-, rfl⟩ | ⟨-, -, bs, -, rfl⟩ := exec_hdrDecode_cases hx
    all_goals exact ⟨_, _, rfl⟩
  | msgType =>
    obtain ⟨-, rfl⟩ | ⟨-, st, -, rfl⟩ := exec_msgType_cases hx
    all_goals exact ⟨_, _, rfl⟩
  | frameParse =>
    obtain ⟨-, rfl⟩ | ⟨-, -, bs, -, rfl⟩ := exec_frameParse_cases hx
    all_goals exact ⟨_, _, rfl⟩
  | verify =>
    obtain ⟨-, rfl⟩ | ⟨-, -, rfl⟩ | ⟨-, -, -, rfl⟩ | ⟨-, -, -, bs, -, ⟨-, rfl⟩ | ⟨-, rfl⟩⟩ := exec_verify_cases hx
    all_goals exact ⟨_, _, rfl⟩
  | rxLoad data =>
    obtain ⟨-, rfl⟩ | ⟨-, rfl⟩ := exec_rxLoad_cases hx
    all_goals exact ⟨_, _, rfl⟩
  | setTopic data =>
    obtain ⟨-, rfl⟩ | ⟨-, -, rfl⟩ | ⟨-, -, -, rfl⟩ := exec_setTopic_cases hx
    all_goals exact ⟨_, _, rfl⟩
  | writeRaw data =>
    obtain ⟨-, rfl⟩ | ⟨-, -, rfl⟩ | ⟨-, -, rfl⟩ := exec_writeRaw_cases hx
    all_goals exact ⟨_, _, rfl⟩
  | writeVia v =>
    obtain ⟨-, rfl⟩ | ⟨-, -, rfl⟩ |
      ⟨-, -, ans, rest, -, ⟨-, rfl⟩ | ⟨-, rfl⟩ | ⟨bs, -, -, rfl⟩ | ⟨bs, -, -, rfl⟩⟩ := exec_writeVia_cases hx
    all_goals exact ⟨_, _, rfl⟩
  | finalize kind =>
    obtain ⟨-, rfl⟩ | ⟨-, -, rfl⟩ | ⟨-, -, body, header, -, -, -, rfl⟩ := exec_finalize_cases hx
    all_goals exact ⟨_, _, rfl⟩

/-- Settles O40. -/
theorem asFrameRule : Obligations.AsFrameRule := by
  refine ⟨decodeOfEncodeIsTheInstruction .asFrame, illFormedRejected .asFrame, fun s => ?_, fun i s t r hi hx hr => ?_⟩
  · split
    next hp => exact exec_asFrame_of_phase_ne hp
    next hp =>
      intro frame hlen hfit hframe
      rw [holds_iff_readBytes, hlen] at hframe
      exact exec_asFrame_of_read (not_not.1 hp) (hlen ▸ hfit) hframe
  · by_cases hheader : i.op = .hdrEncode
    · cases i <;> cases hheader
      cases hx
      cases hr
      exact .inr ⟨_, _, _, _, _, rfl, rfl⟩
    · obtain ⟨st, vs, hresp⟩ := exec_rdata_eq_nil hi hheader hx
      cases hr.symm.trans hresp
      exact .inl rfl

end Sys2Proof.Machine

/-!
The control commands and the dispatch (44_control.md R210, R211).
-/
namespace Sys2Proof.Machine

/-- GET_STATUS answers and leaves ERR alone (R210). -/
theorem exec_getStatus (s : State) :
    exec .getStatus s = .next (s.answer .ok [s.statusWord, s.cur, s.rxLen, s.frameLen] []) := rfl

/-- Settles O47: of the four values right after reset only STATUS is computed, the others are registers. -/
theorem getStatusRule : Obligations.GetStatusRule := by
  refine ⟨decodeOfEncodeIsTheInstruction .getStatus, illFormedRejected .getStatus, exec_getStatus, fun p => ?_⟩
  rw [exec_getStatus, statusWord_resetOf]
  rfl

/-- Settles O7, by what is at the port; the encoding of an instruction decodes to it (O1). -/
theorem stepRunsTheDecodedInstruction : Obligations.StepRunsTheDecodedInstruction :=
  ⟨fun s _ _ _ hin hd => step_ok s hin hd,
    fun s i _ => step_ok (s.issue (encode i)) rfl (decodeOfEncodeIsTheInstruction i),
    step_idle⟩

end Sys2Proof.Machine

/-!
Rejections (60_exceptions.md R223): a command is rejected in the state it started from, but for the valid bits of a truncated
header and the bytes a serializer was given.
-/
namespace Sys2Proof.Machine

variable {i : Instr} {s t u : State} {st : Status} {vs : List Word}

/-! ## How a command ends -/

/-- The two rejections that carry values, exception (c) of R223. -/
def RejectedWithValues (i : Instr) (st : Status) : Prop :=
  (i = .msgType ∧ st = .unknownMessageKind) ∨ (i = .verify ∧ st = .checksumMismatch)

/-- What R223 says of a state `t` that command `i` ends in from `s`, if its response is a rejection. -/
def RejectedCleanly (i : Instr) (s t : State) : Prop :=
  ∀ st values rdata, t.resp = some ⟨st, values, rdata⟩ → statusClass i.op st = .rejected →
    t.err = st ∧ rdata = [] ∧
    (∀ r, r ≠ .err → (st = .truncatedHeader → r ∉ validBits) → t.reg r = s.reg r) ∧
    (st = .truncatedHeader → t.hdrValid = false ∧ t.frameValid = false ∧ t.trunc = false) ∧
    (∀ sp a, (i.op = .writeVia → st ≠ .sequenceError → s.params.hasSerializer = true →
        outsideSpan (storeSpan s i) sp a) → t.readByte sp a = s.readByte sp a) ∧
    (values ≠ [] → RejectedWithValues i st)

/-- A command that completes is no rejection. -/
theorem rejectedCleanly_of_completed (hanswered : answered t st) (hclass : statusClass i.op st ≠ .rejected) :
    RejectedCleanly i s t := by
  obtain ⟨vs, bs, hresp⟩ := hanswered
  intro st' vs' bs' hresp' hclass'
  cases hresp.symm.trans hresp'
  exact absurd hclass' hclass

theorem rejectedCleanly_ok (hanswered : answered t .ok) : RejectedCleanly i s t :=
  rejectedCleanly_of_completed hanswered nofun

/-- A command that answers from a state `u` is rejected cleanly if `u` differs from `s` only where R223 lets it. -/
theorem rejectedCleanly_respond
    (hregs : ∀ r, (st = .truncatedHeader → r ∉ validBits) → u.reg r = s.reg r)
    (hvalid : st = .truncatedHeader → u.hdrValid = false ∧ u.frameValid = false ∧ u.trunc = false)
    (hbytes : ∀ sp a, (i.op = .writeVia → st ≠ .sequenceError → s.params.hasSerializer = true →
      outsideSpan (storeSpan s i) sp a) → u.readByte sp a = s.readByte sp a)
    (hvalues : vs ≠ [] → RejectedWithValues i st) :
    RejectedCleanly i s (u.respond st vs []) := by
  intro st' vs' bs' hresp _
  cases hresp
  refine ⟨rfl, rfl, fun r hr htrunc => ?_, hvalid, fun sp a ha => ?_, hvalues⟩
  · rw [u.reg_respond st vs [] hr, hregs r htrunc]
  · rw [← hbytes sp a ha]
    cases sp <;> rfl

/-- A rejection with nothing written but ERR. -/
theorem rejectedCleanly_reject (htrunc : st ≠ .truncatedHeader) : RejectedCleanly i s (s.reject st) :=
  rejectedCleanly_respond (fun _ _ => rfl) (fun h => absurd h htrunc) (fun _ _ _ => rfl) (absurd rfl)

/-- Exception (a): TRUNCATED_HEADER clears the three valid bits. -/
theorem rejectedCleanly_truncatedHeader : RejectedCleanly i s (s.clearValid.reject .truncatedHeader) := by
  refine rejectedCleanly_respond (fun r hr => s.reg_clearValid (hr rfl)) (fun _ => ⟨rfl, rfl, rfl⟩) (fun sp a _ => ?_)
    (absurd rfl)
  cases sp <;> rfl

/-- Exception (b): WRITE_VIA rejected after the serializer was asked, which leaves the bytes from CUR on arbitrary. -/
theorem rejectedCleanly_asked {v : Word} {rest : List SerAnswer} (hser : s.params.hasSerializer = true)
    (htrunc : st ≠ .truncatedHeader) (hseq : st ≠ .sequenceError) :
    RejectedCleanly (.writeVia v) s ((s.askSerializer v rest).reject st) := by
  obtain ⟨-, hmem, -⟩ := framed_askSerializer s v rest
  exact rejectedCleanly_respond (fun r _ => s.reg_askSerializer v rest r) (fun h => absurd h htrunc)
    (fun sp a ha => hmem sp a (ha rfl hseq hser)) (absurd rfl)

/-- Exception (c): MSG_TYPE and VERIFY answer values with a rejection. -/
theorem rejectedCleanly_values (h : RejectedWithValues i st) : RejectedCleanly i s (s.respond st vs []) := by
  have htrunc : st ≠ .truncatedHeader := by
    obtain ⟨-, rfl⟩ | ⟨-, rfl⟩ := h
    all_goals exact nofun
  exact rejectedCleanly_respond (fun _ _ => rfl) (fun h => absurd h htrunc) (fun _ _ _ => rfl) fun _ => h

/-! ## Every instruction -/

/-- Every instruction that is rejected obeys R223. -/
theorem exec_rejectedCleanly (hx : exec i s = .next t) : RejectedCleanly i s t := by
  cases i with
  | crcInit | crcUpdate data | crcFinal | crcOneshot data | hdrEncode magic checksum options topicLen dataLen | bldReset
  | getStatus =>
    cases hx
    exact rejectedCleanly_ok ⟨_, _, rfl⟩
  | hdrDecode =>
    obtain ⟨-, rfl⟩ | ⟨-, -, bs, -, rfl⟩ := exec_hdrDecode_cases hx
    · exact rejectedCleanly_truncatedHeader
    · exact rejectedCleanly_ok ⟨_, _, rfl⟩
  | msgType =>
    obtain ⟨-, rfl⟩ | ⟨-, st, rfl | rfl, rfl⟩ := exec_msgType_cases hx
    · exact rejectedCleanly_reject nofun
    · exact rejectedCleanly_ok ⟨_, _, rfl⟩
    · exact rejectedCleanly_values (.inl ⟨rfl, rfl⟩)
  | frameParse =>
    obtain ⟨-, rfl⟩ | ⟨-, -, bs, -, rfl⟩ := exec_frameParse_cases hx
    · exact rejectedCleanly_truncatedHeader
    · refine rejectedCleanly_of_completed ⟨_, _, rfl⟩ ?_
      split <;> decide
  | verify =>
    obtain ⟨-, rfl⟩ | ⟨-, -, rfl⟩ | ⟨-, -, -, rfl⟩ | ⟨-, -, -, bs, -, ⟨-, rfl⟩ | ⟨-, rfl⟩⟩ := exec_verify_cases hx
    · exact rejectedCleanly_reject nofun
    · exact rejectedCleanly_reject nofun
    · exact rejectedCleanly_reject nofun
    · exact rejectedCleanly_values (.inr ⟨rfl, rfl⟩)
    · exact rejectedCleanly_ok ⟨_, _, rfl⟩
  | rxLoad data =>
    obtain ⟨-, rfl⟩ | ⟨-, rfl⟩ := exec_rxLoad_cases hx
    · exact rejectedCleanly_reject nofun
    · exact rejectedCleanly_ok ⟨_, _, rfl⟩
  | setTopic data =>
    obtain ⟨-, rfl⟩ | ⟨-, -, rfl⟩ | ⟨-, -, -, rfl⟩ := exec_setTopic_cases hx
    · exact rejectedCleanly_reject nofun
    · exact rejectedCleanly_reject nofun
    · exact rejectedCleanly_ok ⟨_, _, rfl⟩
  | writeRaw data =>
    obtain ⟨-, rfl⟩ | ⟨-, -, rfl⟩ | ⟨-, -, rfl⟩ := exec_writeRaw_cases hx
    · exact rejectedCleanly_reject nofun
    · exact rejectedCleanly_reject nofun
    · exact rejectedCleanly_ok ⟨_, _, rfl⟩
  | writeVia v =>
    obtain ⟨-, rfl⟩ | ⟨-, -, rfl⟩ | ⟨-, hser, ans, rest, -, hans⟩ := exec_writeVia_cases hx
    · exact rejectedCleanly_reject nofun
    · exact rejectedCleanly_reject nofun
    · obtain ⟨-, rfl⟩ | ⟨-, rfl⟩ | ⟨bs, -, -, rfl⟩ | ⟨bs, -, -, rfl⟩ := hans
      · exact rejectedCleanly_asked hser nofun nofun
      · exact rejectedCleanly_asked hser nofun nofun
      · exact rejectedCleanly_asked hser nofun nofun
      · exact rejectedCleanly_ok ⟨_, _, rfl⟩
  | finalize kind =>
    obtain ⟨-, rfl⟩ | ⟨-, -, rfl⟩ | ⟨-, -, body, header, -, -, -, rfl⟩ := exec_finalize_cases hx
    · exact rejectedCleanly_reject nofun
    · exact rejectedCleanly_reject nofun
    · exact rejectedCleanly_ok ⟨_, _, rfl⟩
  | asFrame =>
    obtain ⟨-, rfl⟩ | ⟨-, frame, -, -, rfl⟩ := exec_asFrame_cases hx
    · exact rejectedCleanly_reject nofun
    · exact rejectedCleanly_ok ⟨_, _, rfl⟩

/-- Settles O53, from what R223 says of each command. -/
theorem rejectedCommandOnlySetsErr : Obligations.RejectedCommandOnlySetsErr :=
  fun _ _ _ st values rdata hx => exec_rejectedCleanly hx st values rdata

end Sys2Proof.Machine

/-!
The reset event (70_reset_and_hazards.md R250, R251): it keeps the parameters and the two lists of what the host and the
serializer do next; everything else is as `State.resetOf` gives it.
-/
namespace Sys2Proof.Machine

/-- No register reads the two lists that a reset event keeps, so each has its value of R43. -/
@[simp] theorem State.reg_resetEvent (s : State) (r : Reg) : s.resetEvent.reg r = (State.resetOf s.params).reg r := by
  cases r <;> rfl

@[simp] theorem State.readByte_resetEvent (s : State) (sp : Space) (a : Nat) : s.resetEvent.readByte sp a = none := by
  cases sp <;> rfl

/-- Settles O9: taking the event from the port changes neither the parameters nor the serializer's answers. -/
theorem resetEventRestoresEveryRegister : Obligations.ResetEventRestoresEveryRegister := by
  intro s rest hreset
  exact ⟨(s.taken rest).resetEvent, step_reset s hreset, (s.taken rest).reg_resetEvent, rfl, rfl, rfl, rfl,
    (s.taken rest).readByte_resetEvent⟩

end Sys2Proof.Machine
